-- ==== Sys2Proof/Word.lean ====
section
/-! DEFINITION. The two word types of the unit: the 256-bit operand and result word (R5, R12) and the 8-bit
command word (R61). Bit 0 is the least-significant bit of both. -/

namespace Sys2Proof

/-- The 256-bit word of every operand and every result (R5). -/
abbrev Word := BitVec 256

/-- The 8-bit command word `req_op[7:0]` (R61). -/
abbrev Command := BitVec 8

end Sys2Proof
end

