-- ==== Sys2Proof/Syntax.lean ====
section
/-! DEFINITION. The instructions of the unit: one constructor for each command value of rule R63, in the order of
spec/opcode_table.json. A constructor carries no fields: the command word has no operand or immediate field (R61,
R66), and the operands A and B travel beside it on ports of their own (R62). -/

namespace Sys2Proof

/-- The 18 assigned commands (R63). "Instruction" means one command value (R2). -/
inductive Instr where
  /-- `0x10`, absolute value (R81). -/
  | abs
  /-- `0x11`, round toward negative infinity (R82). -/
  | floor
  /-- `0x12`, round toward positive infinity (R83). -/
  | ceil
  /-- `0x13`, fractional part by truncating remainder (R84). -/
  | frac
  /-- `0x20`, scaled truncating division (R101). -/
  | div
  /-- `0x21`, scaled multiplication, rounding by the sign of the first operand (R102). -/
  | mul
  /-- `0x30`, most-significant-bit search (R121). -/
  | msb
  /-- `0x31`, power-of-two classifier (R122). -/
  | ispow2
  /-- `0x32`, next power of two (R123). -/
  | nextpow2
  /-- `0x40`, binary logarithm (R141). -/
  | log2
  /-- `0x41`, natural logarithm (R147). -/
  | ln
  /-- `0x50`, the scale constant (R161). -/
  | unit
  /-- `0x51`, Euler's number (R162). -/
  | e
  /-- `0x52`, π (R163). -/
  | pi
  /-- `0x60`, signature only (R171). -/
  | muldiv
  /-- `0x61`, signature only (R172). -/
  | sqrt
  /-- `0x62`, signature only (R173). -/
  | exp
  /-- `0x63`, signature only (R174). -/
  | exp2
  deriving DecidableEq, Repr

end Sys2Proof
end

