-- ==== Sys2Proof/WellFormed.lean ====
section
/-! DEFINITION. What is well formed. A command word is assigned when its family FAM exists and its function FN lies
inside that family (R61, R63); every other word is reserved (R64). An `Instr` has no field that could be out of range,
so each one is well formed; the check that refuses something is the one on words. -/

namespace Sys2Proof

/-- How many functions each family has: the rows of rule R63 counted by FAM. A family that is not listed has none. -/
def familySize : Nat → Nat
  | 1 => 4
  | 2 => 2
  | 3 => 3
  | 4 => 2
  | 5 => 3
  | 6 => 4
  | _ => 0

/-- The word is one of the 18 assigned command values: FN, bits [3:0], lies inside family FAM, bits [7:4] (R61, R63). -/
def Command.assigned (op : Command) : Bool :=
  decide (op.toNat % 16 < familySize (op.toNat / 16))

/-- Every constructor is a whole command: no operand field, no immediate, no mode bit (R61, R66), so nothing of it can be
out of range. One line per constructor, so that a constructor with a field would have to state its check here. -/
def Instr.wellFormed (i : Instr) : Bool :=
  match i with
  | .abs | .floor | .ceil | .frac => true
  | .div | .mul => true
  | .msb | .ispow2 | .nextpow2 => true
  | .log2 | .ln => true
  | .unit | .e | .pi => true
  | .muldiv | .sqrt | .exp | .exp2 => true

end Sys2Proof
end

