-- ==== Sys2Proof/Decode.lean ====
section
/-! DEFINITION. Decoding and encoding of the command word (R61 to R64). Decoding reads all 8 bits of the word and nothing
else; a value outside the 18 rows of rule R63 is rejected by the name `reservedOp`. -/

namespace Sys2Proof

/-- Why a word does not decode. -/
inductive DecodeError where
  /-- One of the 238 reserved values of rule R64. The unit answers such a command with ILLEGAL / RESERVED_OP. -/
  | reservedOp (op : Command)
  deriving DecidableEq, Repr

/-- FAM, bits [7:4] of the command word (R61). -/
def commandFam (op : Command) : BitVec 4 :=
  op.extractLsb' 4 4

/-- FN, bits [3:0] of the command word (R61). -/
def commandFn (op : Command) : BitVec 4 :=
  op.extractLsb' 0 4

/-- The opcode map of rule R63, by family and function; every other pair is reserved (R64). -/
def decode (op : Command) : Except DecodeError Instr :=
  match (commandFam op).toNat, (commandFn op).toNat with
  | 1, 0 => .ok .abs
  | 1, 1 => .ok .floor
  | 1, 2 => .ok .ceil
  | 1, 3 => .ok .frac
  | 2, 0 => .ok .div
  | 2, 1 => .ok .mul
  | 3, 0 => .ok .msb
  | 3, 1 => .ok .ispow2
  | 3, 2 => .ok .nextpow2
  | 4, 0 => .ok .log2
  | 4, 1 => .ok .ln
  | 5, 0 => .ok .unit
  | 5, 1 => .ok .e
  | 5, 2 => .ok .pi
  | 6, 0 => .ok .muldiv
  | 6, 1 => .ok .sqrt
  | 6, 2 => .ok .exp
  | 6, 3 => .ok .exp2
  | _, _ => .error (.reservedOp op)

/-- The command value of each row, as the CAP_OP column of rule R63 writes it. -/
def encode (i : Instr) : Command :=
  match i with
  | .abs => 0x10
  | .floor => 0x11
  | .ceil => 0x12
  | .frac => 0x13
  | .div => 0x20
  | .mul => 0x21
  | .msb => 0x30
  | .ispow2 => 0x31
  | .nextpow2 => 0x32
  | .log2 => 0x40
  | .ln => 0x41
  | .unit => 0x50
  | .e => 0x51
  | .pi => 0x52
  | .muldiv => 0x60
  | .sqrt => 0x61
  | .exp => 0x62
  | .exp2 => 0x63

/-- The instruction the decoder reads from an instruction of `nbits` bits with value `w` (bit 0 least significant). A
command is exactly one 8-bit word (R61), so another length or a value of more than 8 bits is no command. -/
def decodeTableWord (nbits w : Nat) : Option Instr :=
  if nbits = 8 ∧ w < 256 then
    match decode (BitVec.ofNat 8 w) with
    | .ok i => some i
    | .error _ => none
  else none

end Sys2Proof
end

