-- ==== Sys2Proof/Machine/Numbers.lean ====
section
/-! DEFINITION. The number format and the primitives of the pseudocode (R7 to R16): constants, conversions between words
and integers, truncating division and remainder, shifts. The pseudocode computes on unbounded integers and narrows only
where it says so (R13). -/

namespace Sys2Proof.Machine

/-- The scale factor 10^18 (R7). -/
def UNIT : Int := 1000000000000000000

/-- Half the scale factor (R7). -/
def HALF_UNIT : Int := 500000000000000000

/-- Twice the scale factor (R7). -/
def TWICE_UNIT : Int := 2000000000000000000

/-- The greatest raw value, 2^255 − 1 (R8). -/
def MAX_59x18 : Int := 2 ^ 255 - 1

/-- The least raw value, −2^255 (R8). -/
def MIN_59x18 : Int := -(2 ^ 255)

/-- The largest multiple of UNIT that is at most MAX_59x18, in the decimal digits of rule R9. -/
def MAX_WHOLE_59x18 : Int :=
  57896044618658097711785492504343953926634992332820282019728000000000000000000

/-- The smallest multiple of UNIT that is at least MIN_59x18, in the decimal digits of rule R9. -/
def MIN_WHOLE_59x18 : Int :=
  -57896044618658097711785492504343953926634992332820282019728000000000000000000

/-- The raw value of the natural logarithm of 2 (R10). -/
def LN2 : Int := 693147180559945309

/-- The raw value of Euler's number (R162). -/
def E_RAW : Int := 2718281828459045235

/-- The raw value of π (R163). -/
def PI_RAW : Int := 3141592653589793238

/-- The signed (two's-complement) integer of a word (R13). -/
def sval (w : Word) : Int := w.toInt

/-- The unsigned integer of a word (R11, R13). -/
def uval (w : Word) : Nat := w.toNat

/-- The word whose unsigned value is v modulo 2^256 (R13). -/
def enc (v : Int) : Word := BitVec.ofInt 256 v

/-- Zero-extension of a small unsigned number to a word (R13, R70). -/
def zext256 (n : Nat) : Word := BitVec.ofNat 256 n

/-- v lies in the signed range (R13). -/
abbrev InS (v : Int) : Prop := MIN_59x18 ≤ v ∧ v ≤ MAX_59x18

/-- v lies in the unsigned range (R13). -/
abbrev InU (v : Int) : Prop := 0 ≤ v ∧ v ≤ 2 ^ 256 - 1

/-- The quotient rounded toward zero (R14); `Laws/Numbers.lean` shows it is the formula of that rule. -/
def tdiv (a b : Int) : Int := Int.tdiv a b

/-- The remainder that goes with `tdiv`; its sign follows a (R14). -/
def trem (a b : Int) : Int := a - b * tdiv a b

/-- Arithmetic right shift, ⌊v / 2^n⌋ (R15). -/
def asr (v : Int) (n : Nat) : Int := v / 2 ^ n

/-- Logical right shift, ⌊u / 2^n⌋ (R15). -/
def lsr (u n : Nat) : Nat := u / 2 ^ n

end Sys2Proof.Machine
end

