-- ==== Sys2Proof/Machine/Flags.lean ====
section
/-! DEFINITION. The status and cause codes of a response (R68, R69), how an operation ends (R16, R17) and the response it
gives (R70, R71), and the two records that cross the ports. The unit has no flags that persist between transactions (R24); these codes are all it reports. -/

namespace Sys2Proof.Machine

/-- The status kinds (R68, R181). -/
inductive Status where
  /-- The operation produced a result. -/
  | ok
  /-- The input violates a precondition unrelated to integer width. -/
  | domain
  /-- A value would exceed the fixed integer width, or a whole-value bound is violated. -/
  | range
  /-- The command value selects no implemented operation. -/
  | illegal
  deriving DecidableEq, Repr

/-- The error causes 1 to 11 (R69). Cause 0, NONE, is the absence of an error; 12 to 15 are never produced. -/
inductive Cause where
  /-- 1: LOG2, LN with x ≤ 0. -/
  | logNonpos
  /-- 2: ISPOW2, NEXTPOW2 with u = 0. -/
  | pow2Zero
  /-- 3: DIV with y = 0. -/
  | divByZero
  /-- 4: ABS with x = MIN_59x18. -/
  | absMin
  /-- 5: FLOOR with x < MIN_WHOLE_59x18. -/
  | floorBelowMinWhole
  /-- 6: CEIL with x > MAX_WHOLE_59x18. -/
  | ceilAboveMaxWhole
  /-- 7: DIV with x·UNIT outside the signed range. -/
  | divOverflow
  /-- 8: MUL with x·y outside the signed range. -/
  | mulOverflow
  /-- 9: MUL with x·y ± HALF_UNIT outside the signed range. -/
  | mulRoundOverflow
  /-- 10: the four signature-only commands. -/
  | unimplemented
  /-- 11: the reserved command values. -/
  | reservedOp
  deriving DecidableEq, Repr

/-- The value of `rsp_status` for each kind (R68). -/
def Status.code (k : Status) : BitVec 2 :=
  match k with
  | .ok => 0
  | .domain => 1
  | .range => 2
  | .illegal => 3

/-- The value of `rsp_cause` for each cause (R69). -/
def Cause.code (c : Cause) : BitVec 4 :=
  match c with
  | .logNonpos => 1
  | .pow2Zero => 2
  | .divByZero => 3
  | .absMin => 4
  | .floorBelowMinWhole => 5
  | .ceilAboveMaxWhole => 6
  | .divOverflow => 7
  | .mulOverflow => 8
  | .mulRoundOverflow => 9
  | .unimplemented => 10
  | .reservedOp => 11

/-- Each cause belongs to exactly one status (R69). -/
def Cause.status (c : Cause) : Status :=
  match c with
  | .logNonpos | .pow2Zero | .divByZero => .domain
  | .absMin | .floorBelowMinWhole | .ceilAboveMaxWhole => .range
  | .divOverflow | .mulOverflow | .mulRoundOverflow => .range
  | .unimplemented | .reservedOp => .illegal

/-- How an operation ends: with a value (`result <- v`) or with the first error raised (R17). -/
abbrev OpResult (α : Type) := Except Cause α

/-- Checked arithmetic: v itself when it lies in the signed range, else a range error with the cause named (R16). -/
def chk (v : Int) (c : Cause) : OpResult Int :=
  if InS v then .ok v else .error c

/-- One request: the command word and the two operand words sampled together (R44, R61, R62). -/
structure Request where
  /-- `req_op[7:0]`. -/
  op : Command
  /-- `req_a[255:0]`. -/
  a : Word
  /-- `req_b[255:0]`. -/
  b : Word
  deriving DecidableEq, Repr

/-- One response: the three fields of rule R67. -/
structure Response where
  /-- `rsp_status[1:0]`. -/
  status : BitVec 2
  /-- `rsp_cause[3:0]`. -/
  cause : BitVec 4
  /-- `rsp_result[255:0]`. -/
  result : Word
  deriving DecidableEq, Repr

/-- The response to how an operation ended: OK / NONE with the result word (R17, R70), or the error's status and cause
with result 0 (R71, R183). -/
def respond (r : OpResult Word) : Response :=
  match r with
  | .ok w => { status := Status.ok.code, cause := 0, result := w }
  | .error c => { status := c.status.code, cause := c.code, result := 0 }

end Sys2Proof.Machine
end

