-- ==== Sys2Proof/Machine/Operands.lean ====
section
/-! DEFINITION. How each command reads its operand words and writes its result word (R62, R63, R65, R70). -/

namespace Sys2Proof.Machine

/-- How a command reads one operand word (R62, R65). -/
inductive OperandKind where
  /-- As `sval` of the word: SD59x18. -/
  | signed
  /-- As `uval` of the word: UINT256. -/
  | unsigned
  /-- Not at all. -/
  | ignored
  deriving DecidableEq, Repr

/-- What a command's result word stands for (R63, R70). -/
inductive ResultKind where
  /-- `enc` of a signed fixed-point value. -/
  | fixed
  /-- An unsigned word. -/
  | unsigned
  /-- 1 for true, 0 for false. -/
  | boolean
  /-- No result: the command always answers UNIMPLEMENTED. -/
  | none
  deriving DecidableEq, Repr

/-- Column A of rule R63. -/
def operandA (i : Instr) : OperandKind :=
  match i with
  | .abs | .floor | .ceil | .frac | .div | .mul | .log2 | .ln => .signed
  | .msb | .ispow2 | .nextpow2 => .unsigned
  | .unit | .e | .pi | .muldiv | .sqrt | .exp | .exp2 => .ignored

/-- Column B of rule R63. -/
def operandB (i : Instr) : OperandKind :=
  match i with
  | .div | .mul => .signed
  | .abs | .floor | .ceil | .frac | .msb | .ispow2 | .nextpow2 | .log2 | .ln => .ignored
  | .unit | .e | .pi | .muldiv | .sqrt | .exp | .exp2 => .ignored

/-- Column "result type" of rule R63. -/
def resultKind (i : Instr) : ResultKind :=
  match i with
  | .abs | .floor | .ceil | .frac | .div | .mul | .log2 | .ln | .unit | .e | .pi => .fixed
  | .msb | .nextpow2 => .unsigned
  | .ispow2 => .boolean
  | .muldiv | .sqrt | .exp | .exp2 => .none

/-- The result word of an operation on one signed operand (R65, R70). -/
def onSigned (f : Int → OpResult Int) (a : Word) : OpResult Word :=
  (f (sval a)).map enc

/-- The result word of an operation on two signed operands (R65, R70). -/
def onSigned2 (f : Int → Int → OpResult Int) (a b : Word) : OpResult Word :=
  (f (sval a) (sval b)).map enc

/-- The result word of an operation on one unsigned operand that gives an unsigned word (R65, R70). -/
def onUnsigned (f : Nat → OpResult Word) (a : Word) : OpResult Word :=
  f (uval a)

/-- The word of a boolean result: 1 for true, 0 for false (R70). -/
def boolWord (b : Bool) : Word :=
  if b then zext256 1 else zext256 0

end Sys2Proof.Machine
end

