-- ==== Sys2Proof/Config.lean ====
section
/-! DEFINITION. What the spec leaves open, as constants without a body (no proof can see their value): the latency
LAT (R219), the values of the capture registers after a reset edge (R36), and what the host drives on the input ports at
an edge for which the state lists no values (R21, R26, R27). -/

namespace Sys2Proof

/-- The input ports of the unit as they stand at one rising edge of `clk` (R26, R27). -/
structure PortIn where
  /-- `rst`, synchronous reset, active high. -/
  rst : Bool
  /-- `req_valid`, the host presents a request. -/
  reqValid : Bool
  /-- `req_op`, the command word. -/
  reqOp : Command
  /-- `req_a`, operand word A. -/
  reqA : Word
  /-- `req_b`, operand word B. -/
  reqB : Word
  /-- `rsp_ready`, the host takes the response. -/
  rspReady : Bool
  deriving DecidableEq, Repr, Inhabited

/-- LAT(op, a, b) minus one: any number of edges beyond the first (R6, R219, D16). Free
(DESIGN CHOICE, safe, log entry 3). -/
opaque Config.latencyBeyondOne : Command → Word → Word → Nat

/-- LAT(op, a, b) of rule R219: rising edges from acceptance to the BUSY-to-DONE edge, a finite integer of at least 1.
It may differ by command and by operand value, and nothing else is known of it. -/
def Config.lat (op : Command) (a b : Word) : Nat :=
  Config.latencyBeyondOne op a b + 1

/-- What the host drives at edge number `n` when the state lists no port values for it. Free: the host may do anything
(DESIGN CHOICE, safe, log entry 4). -/
opaque Config.hostPins : Nat → PortIn

/-- CAP_OP after a reset edge number `n`: unspecified (R36). Free (DESIGN CHOICE, safe, log entry 2). -/
opaque Config.capOpAfterReset : Nat → Command

/-- CAP_A after a reset edge number `n`: unspecified (R36). Free (DESIGN CHOICE, safe, log entry 2). -/
opaque Config.capAAfterReset : Nat → Word

/-- CAP_B after a reset edge number `n`: unspecified (R36). Free (DESIGN CHOICE, safe, log entry 2). -/
opaque Config.capBAfterReset : Nat → Word

end Sys2Proof
end

