-- ==== Sys2Proof/Machine/State.lean ====
section
/-! DEFINITION. The state of the unit as plain data (10_state.md section 5), the reasons a step can stop, and the state
after reset (R36). -/

namespace Sys2Proof.Machine

/-- The phase of the unit (R28). -/
inductive Phase where
  /-- No transaction is held; a request can be accepted. -/
  | idle
  /-- A request was accepted and its response is not yet ready. -/
  | busy
  /-- A response is presented and waits to be taken. -/
  | done
  deriving DecidableEq, Repr

/-- Everything the unit holds between two rising edges of `clk`. -/
structure State where
  /-- The phase (R28). -/
  phase : Phase
  /-- CAP_OP, the captured command word (R29). -/
  capOp : Command
  /-- CAP_A, the captured operand word A (R29). -/
  capA : Word
  /-- CAP_B, the captured operand word B (R29). -/
  capB : Word
  /-- RSP_STATUS (R30). -/
  rspStatus : BitVec 2
  /-- RSP_CAUSE (R30). -/
  rspCause : BitVec 4
  /-- RSP_RESULT (R30). -/
  rspResult : Word
  /-- The model's own: while BUSY, how many rising edges are left until the BUSY-to-DONE edge of rule R219, that edge
  counted; 0 otherwise (DESIGN CHOICE, log entry 3). -/
  latLeft : Nat
  /-- The model's own: the input ports at the coming edges, the next edge first. Past its end the ports are free
  (DESIGN CHOICE, safe, log entry 4). -/
  inputs : List PortIn
  /-- The model's own: how many edges have passed; it only picks the free values of Config
  (DESIGN CHOICE, log entry 4). -/
  edges : Nat
  deriving DecidableEq, Repr

/-- Why a step can stop with a fault: never. Every error of the unit is a response (R183) and every operation is total
(R19), so no fault exists and this type has no constructor: nobody raises one (DEDUCED, log entry 8). -/
inductive Fault
  deriving DecidableEq, Repr

/-- Why a step can be refused. -/
inductive Refusal where
  /-- Raised by an arm of `exec` for an instruction that has no meaning in the model; safe (nothing can be proved of what
  such a command answers). No arm raises it: all 18 instructions have their meaning. -/
  | notModelled (mnemonic : String)
  deriving DecidableEq, Repr

/-- The state after an edge with `rst = 1` (R36, R212): IDLE, the response registers zero. CAP_OP, CAP_A and CAP_B are
unspecified there; zero is the model's choice (DESIGN CHOICE, unsafe, log entry 1). No port values are listed
(log entry 4). -/
def State.reset : State where
  phase := .idle
  capOp := 0
  capA := 0
  capB := 0
  rspStatus := 0
  rspCause := 0
  rspResult := 0
  latLeft := 0
  inputs := []
  edges := 0

end Sys2Proof.Machine
end

