-- ==== Sys2Proof/Machine/Ops.lean ====
section
/-! DEFINITION. The named operations on the state: what the ports carry at an edge, what each kind of edge does to the
registers (R28 to R30, R36, R212, R216, R218, R219), and the one operation that ends a transaction's computation, with a
result or with an error (R30, R183). The unit takes no trap (R187): reporting an error IS writing the response registers,
and what stands for the return from it is the delivery of that response (R186, R188). -/

namespace Sys2Proof.Machine

/-- The input ports at the coming edge: the first listed values, or free ones where none are listed. -/
def State.pins (s : State) : PortIn :=
  match s.inputs with
  | p :: _ => p
  | [] => Config.hostPins s.edges

/-- The passing of one edge for the ports alone: the listed values move up by one. No register changes. -/
def State.tick (s : State) : State :=
  { s with inputs := s.inputs.tail, edges := s.edges + 1 }

/-- `req_ready`: 1 exactly when the phase is IDLE and `rst = 0` (R34). -/
def State.reqReady (s : State) : Bool :=
  s.phase == .idle && !s.pins.rst

/-- `rsp_valid`: 1 exactly when the phase is DONE and `rst = 0` (R35). -/
def State.rspValid (s : State) : Bool :=
  s.phase == .done && !s.pins.rst

/-- The response registers as one response (R30). -/
def State.rspRegs (s : State) : Response :=
  { status := s.rspStatus, cause := s.rspCause, result := s.rspResult }

/-- What `rsp_status`, `rsp_cause` and `rsp_result` carry (R30): the response registers while `rsp_valid = 1`, and no value
otherwise (R37). -/
def State.rspPorts (s : State) : Option Response :=
  if s.rspValid then some s.rspRegs else none

/-- A request is accepted at the coming edge (R26). -/
def State.accepts (s : State) : Bool :=
  s.pins.reqValid && s.reqReady

/-- A response is delivered at the coming edge (R27). -/
def State.delivers (s : State) : Bool :=
  s.rspValid && s.pins.rspReady

/-- The coming edge is the BUSY-to-DONE edge: LAT edges have passed since the acceptance (R28, R219). -/
def State.completes (s : State) : Bool :=
  s.phase == .busy && !s.pins.rst && decide (s.latLeft ≤ 1)

/-- An edge with `rst = 1`: IDLE from any phase, the response registers zero, the transaction in flight discarded (R36,
R212). CAP_OP, CAP_A and CAP_B are unspecified after it: free values. -/
def State.resetEdge (s : State) : State :=
  { s.tick with
    phase := .idle
    capOp := Config.capOpAfterReset s.edges
    capA := Config.capAAfterReset s.edges
    capB := Config.capBAfterReset s.edges
    rspStatus := 0
    rspCause := 0
    rspResult := 0
    latLeft := 0 }

/-- The edge that accepts the request on the ports: IDLE to BUSY, the capture registers take the port values (R28, R29,
R216), and LAT edges are to pass before the response is ready (R219). -/
def State.acceptEdge (s : State) : State :=
  { s.tick with
    phase := .busy
    capOp := s.pins.reqOp
    capA := s.pins.reqA
    capB := s.pins.reqB
    latLeft := Config.lat s.pins.reqOp s.pins.reqA s.pins.reqB }

/-- A BUSY edge before the BUSY-to-DONE edge: nothing but time passes (R28, R219). -/
def State.waitEdge (s : State) : State :=
  { s.tick with latLeft := s.latLeft - 1 }

/-- The edge that delivers the response: DONE to IDLE (R28, R218). -/
def State.deliverEdge (s : State) : State :=
  { s.tick with phase := .idle }

/-- An IDLE edge with `rst = 0`: accept a presented request, else nothing changes (R28, R216). -/
def State.idleEdge (s : State) : State :=
  if s.pins.reqValid then s.acceptEdge else s.tick

/-- A DONE edge with `rst = 0`: deliver when the host takes the response, else it is held unchanged (R28, R218). -/
def State.doneEdge (s : State) : State :=
  if s.pins.rspReady then s.deliverEdge else s.tick

/-- The response registers take a response and the phase becomes DONE (R28, R30). -/
def State.present (s : State) (r : Response) : State :=
  { s with
    phase := .done
    rspStatus := r.status
    rspCause := r.cause
    rspResult := r.result
    latLeft := 0 }

/-- What the BUSY-to-DONE edge writes, for a result and for an error alike (R30, R183): the one way a command ends. -/
def State.complete (s : State) (r : OpResult Word) : Host.Outcome State Fault Refusal :=
  .next (s.present (respond r))

/-- The answer to a reserved command value: ILLEGAL / RESERVED_OP with result 0; no operand is read (R64, R185). -/
def State.answerReserved (s : State) : Host.Outcome State Fault Refusal :=
  s.complete (.error .reservedOp)

end Sys2Proof.Machine
end

