-- ==== Sys2Proof/Machine/BitPrim.lean ====
section
/-! DEFINITION. Family 3: MSB, ISPOW2, NEXTPOW2, and the internal helpers ALIGN and SPREAD (R121 to R125). -/

namespace Sys2Proof.Machine

/-- The shift amounts of the most-significant-bit search, in the order of rule R121. -/
def msbSteps : List Nat := [128, 64, 32, 16, 8, 4, 2, 1]

/-- The most-significant-bit search over a list of shift amounts: the remaining value u and the index m so far (R121). -/
def msbSearch (steps : List Nat) (u m : Nat) : Nat :=
  match steps with
  | [] => m
  | s :: rest => if u ≥ 2 ^ s then msbSearch rest (lsr u s) (m + s) else msbSearch rest u m

/-- F_MSB, the index of the highest set bit; 0 for 0 (R121). -/
def fMsb (u : Nat) : Nat := msbSearch msbSteps u 0

/-- The doubling shift amounts of rule R125. -/
def spreadSteps : List Nat := [1, 2, 4, 8, 16, 32, 64, 128]

/-- SPREAD: v with every bit below its highest set bit set, by OR with right-shifted copies (R125). -/
def spread (v : Nat) : Nat :=
  spreadSteps.foldl (fun acc s => acc ||| lsr acc s) v

/-- ALIGN, the arithmetic-shift helper: the real value divided by 2^n, rounded down, at the same scale (R124). -/
def align (x : Int) (n : Nat) : Int := asr x n

/-- Power-of-two classifier (R122). -/
def fIspow2 (u : Nat) : OpResult Bool :=
  if u = 0 then .error .pow2Zero
  else .ok (u &&& (u - 1) == 0)

/-- Round up to a power of two (R123): spread u − 1, add one, modulo 2^256; the wrap is silent. -/
def fNextpow2 (u : Nat) : OpResult Word :=
  if u = 0 then .error .pow2Zero
  else .ok (enc ((spread (u - 1) : Int) + 1))

/-- MSB on the operand word A: never an error, the index zero-extended (R70, R121). -/
def msbOp (a : Word) : OpResult Word := onUnsigned (fun u => .ok (zext256 (fMsb u))) a

/-- ISPOW2 on the operand word A: the boolean as 1 or 0 (R70, R122). -/
def ispow2Op (a : Word) : OpResult Word := onUnsigned (fun u => (fIspow2 u).map boolWord) a

/-- NEXTPOW2 on the operand word A (R123). -/
def nextpow2Op (a : Word) : OpResult Word := onUnsigned fNextpow2 a

/-- The BUSY-to-DONE edge of MSB (R121). -/
def execMsb (s : State) : Host.Outcome State Fault Refusal := s.complete (msbOp s.capA)

/-- The BUSY-to-DONE edge of ISPOW2 (R122). -/
def execIspow2 (s : State) : Host.Outcome State Fault Refusal := s.complete (ispow2Op s.capA)

/-- The BUSY-to-DONE edge of NEXTPOW2 (R123). -/
def execNextpow2 (s : State) : Host.Outcome State Fault Refusal := s.complete (nextpow2Op s.capA)

end Sys2Proof.Machine
end

