-- ==== Sys2Proof/Machine/Constants.lean ====
section
/-! DEFINITION. Family 5: UNIT, E, PI (R161 to R163). They read neither operand and never fail. -/

namespace Sys2Proof.Machine

/-- UNIT (R161). -/
def unitOp : OpResult Word := .ok (enc UNIT)

/-- E (R162). -/
def eOp : OpResult Word := .ok (enc E_RAW)

/-- PI (R163). -/
def piOp : OpResult Word := .ok (enc PI_RAW)

/-- The BUSY-to-DONE edge of UNIT (R161). -/
def execUnit (s : State) : Host.Outcome State Fault Refusal := s.complete unitOp

/-- The BUSY-to-DONE edge of E (R162). -/
def execE (s : State) : Host.Outcome State Fault Refusal := s.complete eOp

/-- The BUSY-to-DONE edge of PI (R163). -/
def execPi (s : State) : Host.Outcome State Fault Refusal := s.complete piOp

end Sys2Proof.Machine
end

