-- ==== Sys2Proof/Machine/MulDiv.lean ====
section
/-! DEFINITION. Family 2: DIV, MUL (R101, R102). Each function is the rule's pseudocode on integers, its checks in the
order written (R17, R185). -/

namespace Sys2Proof.Machine

/-- Scaled division, truncating (R101): the range check of the scaled dividend comes before the check of y. -/
def fDiv (x y : Int) : OpResult Int := do
  let p ← chk (x * UNIT) .divOverflow
  if y = 0 then .error .divByZero
  else .ok (tdiv p y)

/-- Scaled multiplication (R102): HALF_UNIT is added when x > 0 and subtracted when x ≤ 0, whatever the product's sign. -/
def fMul (x y : Int) : OpResult Int := do
  let p ← chk (x * y) .mulOverflow
  let q ← chk (if x > 0 then p + HALF_UNIT else p - HALF_UNIT) .mulRoundOverflow
  .ok (tdiv q UNIT)

/-- DIV on the operand words A (dividend) and B (divisor). -/
def divOp (a b : Word) : OpResult Word := onSigned2 fDiv a b

/-- MUL on the operand words A (first factor) and B (second factor). -/
def mulOp (a b : Word) : OpResult Word := onSigned2 fMul a b

/-- The BUSY-to-DONE edge of DIV (R101). -/
def execDiv (s : State) : Host.Outcome State Fault Refusal := s.complete (divOp s.capA s.capB)

/-- The BUSY-to-DONE edge of MUL (R102). -/
def execMul (s : State) : Host.Outcome State Fault Refusal := s.complete (mulOp s.capA s.capB)

end Sys2Proof.Machine
end

