-- ==== Sys2Proof/Machine/Log.lean ====
section
/-! DEFINITION. Family 4: LOG2, LN (R141, R147), and the pipeline stages of the logarithm (R142 to R146), whose working
values are the record `LogRegs` (the hidden registers that R31 and R145 name; the unit's state does not hold them). -/

namespace Sys2Proof.Machine

/-- The working values of the iteration: y, the result so far, delta and sign (R31, R145). -/
structure LogRegs where
  /-- The normalised value, at scale UNIT. -/
  y : Int
  /-- The logarithm so far. -/
  res : Int
  /-- The weight of the bit this iteration decides. -/
  delta : Int
  /-- 1, or −1 in the reciprocal domain. -/
  sign : Int
  deriving DecidableEq, Repr

/-- Stage 1 (R142): the sign, and x itself or its reciprocal F_DIV(UNIT, x). -/
def logReciprocal (x : Int) : OpResult (Int × Int) :=
  if x < UNIT then (fDiv UNIT x).map (fun x' => (-1, x'))
  else .ok (1, x)

/-- Stage 2 (R143): the integer part n of the logarithm of x'. -/
def logIntPart (x' : Int) : Nat := fMsb (tdiv x' UNIT).toNat

/-- The working values at the start of stage 4 (R143, R144). -/
def logStart (sign x' : Int) : LogRegs where
  y := align x' (logIntPart x')
  res := (logIntPart x' : Int) * UNIT * sign
  delta := HALF_UNIT
  sign := sign

/-- One iteration of stage 4 (R145): square and rescale, take the bit when the square reaches TWICE_UNIT,
halve delta and truncate (log entry 9). -/
def logIter (r : LogRegs) : LogRegs :=
  let s := tdiv (r.y * r.y) UNIT
  if s ≥ TWICE_UNIT then
    { r with y := align s 1, res := r.res + r.delta * r.sign, delta := asr r.delta 1 }
  else
    { r with y := s, delta := asr r.delta 1 }

/-- The loop of stage 4, "while delta > 0" (R141, R146). The fuel only bounds the recursion. -/
def logLoop (fuel : Nat) (r : LogRegs) : LogRegs :=
  match fuel with
  | 0 => r
  | n + 1 => if r.delta > 0 then logLoop n (logIter r) else r

/-- Fuel for `logLoop`: more than the 59 iterations after which delta is 0 (R146), so that delta ends the loop
(DESIGN CHOICE, safe, log entry 10). -/
def logFuel : Nat := 64

/-- F_LOG2 (R141). -/
def fLog2 (x : Int) : OpResult Int := do
  if x ≤ 0 then .error .logNonpos
  else
    let (sign, x') ← logReciprocal x
    let start := logStart sign x'
    if start.y = UNIT then .ok start.res
    else .ok (logLoop logFuel start).res

/-- The natural logarithm by way of log2 (R147). -/
def fLn (x : Int) : OpResult Int := do
  let l ← fLog2 x
  fMul l LN2

/-- LOG2 on the operand word A. -/
def log2Op (a : Word) : OpResult Word := onSigned fLog2 a

/-- LN on the operand word A. -/
def lnOp (a : Word) : OpResult Word := onSigned fLn a

/-- The BUSY-to-DONE edge of LOG2 (R141). -/
def execLog2 (s : State) : Host.Outcome State Fault Refusal := s.complete (log2Op s.capA)

/-- The BUSY-to-DONE edge of LN (R147). -/
def execLn (s : State) : Host.Outcome State Fault Refusal := s.complete (lnOp s.capA)

end Sys2Proof.Machine
end

