-- ==== Sys2Proof/Machine/Placeholders.lean ====
section
/-! DEFINITION. Family 6: MULDIV, SQRT, EXP, EXP2 (R171 to R174), the commands that exist only as signatures. Each one
reads no operand and answers ILLEGAL / UNIMPLEMENTED with result 0. -/

namespace Sys2Proof.Machine

/-- MULDIV (R171). -/
def muldivOp : OpResult Word := .error .unimplemented

/-- SQRT (R172). -/
def sqrtOp : OpResult Word := .error .unimplemented

/-- EXP (R173). -/
def expOp : OpResult Word := .error .unimplemented

/-- EXP2 (R174). -/
def exp2Op : OpResult Word := .error .unimplemented

/-- The BUSY-to-DONE edge of MULDIV (R171). -/
def execMuldiv (s : State) : Host.Outcome State Fault Refusal := s.complete muldivOp

/-- The BUSY-to-DONE edge of SQRT (R172). -/
def execSqrt (s : State) : Host.Outcome State Fault Refusal := s.complete sqrtOp

/-- The BUSY-to-DONE edge of EXP (R173). -/
def execExp (s : State) : Host.Outcome State Fault Refusal := s.complete expOp

/-- The BUSY-to-DONE edge of EXP2 (R174). -/
def execExp2 (s : State) : Host.Outcome State Fault Refusal := s.complete exp2Op

end Sys2Proof.Machine
end

