-- ==== Sys2Proof/Machine/Rounding.lean ====
section
/-! DEFINITION. Family 1: ABS, FLOOR, CEIL, FRAC (R81 to R84). Each function is the rule's pseudocode on integers. -/

namespace Sys2Proof.Machine

/-- Absolute value (R81). -/
def fAbs (x : Int) : OpResult Int :=
  if x = MIN_59x18 then .error .absMin
  else if x < 0 then .ok (-x)
  else .ok x

/-- Round toward negative infinity to a whole value (R82). The bound check comes first. -/
def fFloor (x : Int) : OpResult Int :=
  if x < MIN_WHOLE_59x18 then .error .floorBelowMinWhole
  else
    let r := trem x UNIT
    if r = 0 then .ok x
    else if x < 0 then .ok (x - r - UNIT)
    else .ok (x - r)

/-- Round toward positive infinity to a whole value (R83). The bound check comes first. -/
def fCeil (x : Int) : OpResult Int :=
  if x > MAX_WHOLE_59x18 then .error .ceilAboveMaxWhole
  else
    let r := trem x UNIT
    if r = 0 then .ok x
    else if x > 0 then .ok (x - r + UNIT)
    else .ok (x - r)

/-- Fractional part, by truncating remainder (R84). -/
def fFrac (x : Int) : OpResult Int :=
  .ok (trem x UNIT)

/-- ABS on the operand word A. -/
def absOp (a : Word) : OpResult Word := onSigned fAbs a

/-- FLOOR on the operand word A. -/
def floorOp (a : Word) : OpResult Word := onSigned fFloor a

/-- CEIL on the operand word A. -/
def ceilOp (a : Word) : OpResult Word := onSigned fCeil a

/-- FRAC on the operand word A. -/
def fracOp (a : Word) : OpResult Word := onSigned fFrac a

/-- The BUSY-to-DONE edge of ABS (R81). -/
def execAbs (s : State) : Host.Outcome State Fault Refusal := s.complete (absOp s.capA)

/-- The BUSY-to-DONE edge of FLOOR (R82). -/
def execFloor (s : State) : Host.Outcome State Fault Refusal := s.complete (floorOp s.capA)

/-- The BUSY-to-DONE edge of CEIL (R83). -/
def execCeil (s : State) : Host.Outcome State Fault Refusal := s.complete (ceilOp s.capA)

/-- The BUSY-to-DONE edge of FRAC (R84). -/
def execFrac (s : State) : Host.Outcome State Fault Refusal := s.complete (fracOp s.capA)

end Sys2Proof.Machine
end

