-- ==== Sys2Proof/Machine/Dispatch.lean ====
section
/-! DEFINITION. What the BUSY-to-DONE edge of each command does (R64): one arm per constructor of Instr. -/

namespace Sys2Proof.Machine

def exec (i : Instr) (s : State) : Host.Outcome State Fault Refusal :=
  match i with
  | .abs => Sys2Proof.Machine.execAbs s
  | .floor => Sys2Proof.Machine.execFloor s
  | .ceil => Sys2Proof.Machine.execCeil s
  | .frac => Sys2Proof.Machine.execFrac s
  | .div => Sys2Proof.Machine.execDiv s
  | .mul => Sys2Proof.Machine.execMul s
  | .msb => Sys2Proof.Machine.execMsb s
  | .ispow2 => Sys2Proof.Machine.execIspow2 s
  | .nextpow2 => Sys2Proof.Machine.execNextpow2 s
  | .log2 => Sys2Proof.Machine.execLog2 s
  | .ln => Sys2Proof.Machine.execLn s
  | .unit => Sys2Proof.Machine.execUnit s
  | .e => Sys2Proof.Machine.execE s
  | .pi => Sys2Proof.Machine.execPi s
  | .muldiv => Sys2Proof.Machine.execMuldiv s
  | .sqrt => Sys2Proof.Machine.execSqrt s
  | .exp => Sys2Proof.Machine.execExp s
  | .exp2 => Sys2Proof.Machine.execExp2 s

end Sys2Proof.Machine
end

