-- ==== Sys2Proof/Machine/Fetch.lean ====
section
/-! DEFINITION. How the captured command word is turned into an instruction and run: the unit's counterpart of a fetch
(R2, R23, R64). -/

namespace Sys2Proof.Machine

/-- The BUSY-to-DONE edge: decode CAP_OP and run the command on the state whose ports have moved on; a reserved value is
answered with ILLEGAL / RESERVED_OP (R30, R64). -/
def runCaptured (s : State) : Host.Outcome State Fault Refusal :=
  match decode s.capOp with
  | .ok i => exec i s.tick
  | .error _ => s.tick.answerReserved

/-- Port values with nothing asserted: no reset, no request, no response taken. -/
def quietPins : PortIn where
  rst := false
  reqValid := false
  reqOp := 0
  reqA := 0
  reqB := 0
  rspReady := false

/-- The listed port values with `rst = 0` at the coming edge. -/
def withoutReset (ps : List PortIn) : List PortIn :=
  match ps with
  | [] => [quietPins]
  | p :: rest => { p with rst := false } :: rest

end Sys2Proof.Machine
end

