-- ==== Sys2Proof/Machine/Step.lean ====
section
/-! DEFINITION. One step of the machine: one rising edge of `clk` (R26, R28). Reset wins over everything else at the same
edge (R28, R212); the BUSY-to-DONE edge decodes the captured command and runs it (R30, R64). -/

namespace Sys2Proof.Machine

/-- One rising edge of `clk`. The whole operation is computed at the BUSY-to-DONE edge (R31; DESIGN CHOICE, safe, log entry
6); a BUSY state whose count is 0, which no run reaches, completes too (DESIGN CHOICE, safe, log entry 14). -/
def step (s : State) : Host.Outcome State Fault Refusal :=
  if s.pins.rst then .next s.resetEdge
  else
    match s.phase with
    | .idle => .next s.idleEdge
    | .busy => if s.latLeft ≤ 1 then runCaptured s else .next s.waitEdge
    | .done => .next s.doneEdge

/-- `s` with the command word `w` captured and its BUSY-to-DONE edge the very next one, that edge with `rst = 0`. The unit
fetches nothing (R2, R23): a command reaches it through the request port, and this stands for an acceptance whose other
LAT − 1 edges have passed. The operand registers and the response registers stay as they are. The `nbits` bits of a row
are the whole command (R61), so `w` is that one word (DESIGN CHOICE, safe, log entry 5). -/
def State.withFetchWord (s : State) (nbits w : Nat) : State :=
  { s with
    phase := .busy
    capOp := BitVec.ofNat 8 (w % 2 ^ nbits)
    latLeft := 1
    inputs := withoutReset s.inputs }

end Sys2Proof.Machine
end

