-- ==== Sys2Proof/Machine/Outcome.lean ====
section
/-! DEFINITION. Exec(op, A, B) of rule R64 as a pure function of the command and operand words (R19, R33): what a host
can rely on, with no state, phase or latency in it. `Laws/Exec.lean` shows that the machine's `exec` computes it. -/

namespace Sys2Proof.Machine

/-- How the operation of each command ends on the operand words A and B (R63, R64). -/
def outcome (i : Instr) (a b : Word) : OpResult Word :=
  match i with
  | .abs => absOp a
  | .floor => floorOp a
  | .ceil => ceilOp a
  | .frac => fracOp a
  | .div => divOp a b
  | .mul => mulOp a b
  | .msb => msbOp a
  | .ispow2 => ispow2Op a
  | .nextpow2 => nextpow2Op a
  | .log2 => log2Op a
  | .ln => lnOp a
  | .unit => unitOp
  | .e => eOp
  | .pi => piOp
  | .muldiv => muldivOp
  | .sqrt => sqrtOp
  | .exp => expOp
  | .exp2 => exp2Op

/-- Exec(op, A, B), defined for every 8-bit value of op (R64): the response to the command word op on A and B. -/
def execWord (op : Command) (a b : Word) : Response :=
  match decode op with
  | .ok i => respond (outcome i a b)
  | .error _ => respond (.error .reservedOp)

end Sys2Proof.Machine
end

