-- ==== Sys2Proof/Machine/Assembly.lean ====
section
/-! DEFINITION. The notation of rules R72 and R74: transactions as an assembler reads them, the request words it puts on the
ports, their textual form, and the listing of a request or a response. Texts are lists of characters. The points
that rule R72 leaves open are log entry 11 (DESIGN CHOICE, unsafe for texts only). -/

namespace Sys2Proof.Machine

/-- The named constants an operand may use (R72). -/
inductive NamedConst where
  /-- `UNIT`. -/
  | unit
  /-- `HALF_UNIT`. -/
  | halfUnit
  /-- `TWICE_UNIT`. -/
  | twiceUnit
  /-- `LN2`. -/
  | ln2
  /-- `MAX_59x18`. -/
  | max
  /-- `MIN_59x18`. -/
  | min
  /-- `MAX_WHOLE_59x18`. -/
  | maxWhole
  /-- `MIN_WHOLE_59x18`. -/
  | minWhole
  deriving DecidableEq, Repr

/-- An operand as written (R72). -/
inductive Operand where
  /-- A decimal integer, the raw value. -/
  | dec (v : Int)
  /-- A `0x` hexadecimal word. -/
  | hex (w : Nat)
  /-- A named constant. -/
  | named (c : NamedConst)
  /-- The host variable `t<n>`: the result of the response stored in it (R73). -/
  | hostVar (n : Nat)
  deriving DecidableEq, Repr

/-- A transaction as written (R72). -/
inductive Transaction where
  /-- A mnemonic of rule R63 and its operands. -/
  | op (i : Instr) (args : List Operand)
  /-- `.op 0xNN`, a reserved command value. -/
  | raw (w : Command)
  deriving DecidableEq, Repr

/-- The host variables that are set, the latest assignment first (R73). They are host state, not unit state. -/
abbrev HostVars := List (Nat × Response)

/-- The value of a named constant (R7 to R10). -/
def constValue (c : NamedConst) : Int :=
  match c with
  | .unit => UNIT
  | .halfUnit => HALF_UNIT
  | .twiceUnit => TWICE_UNIT
  | .ln2 => LN2
  | .max => MAX_59x18
  | .min => MIN_59x18
  | .maxWhole => MAX_WHOLE_59x18
  | .minWhole => MIN_WHOLE_59x18

/-- How many operands a command is written with: those it reads (R72). -/
def arity (i : Instr) : Nat :=
  (if operandA i = .ignored then 0 else 1) + (if operandB i = .ignored then 0 else 1)

/-- The word the assembler puts on the port for an operand: `enc` of a decimal or a constant, the hexadecimal word itself,
the result held in a host variable (R72, R73); none when that variable is not set. -/
def operandWord (vars : HostVars) (o : Operand) : Option Word :=
  match o with
  | .dec v => some (enc v)
  | .hex w => some (BitVec.ofNat 256 w)
  | .named c => some (enc (constValue c))
  | .hostVar n => (vars.lookup n).map Response.result

/-- The request a transaction stands for; operands the command does not read are zero words (R72). None when it is written
with the wrong number of operands or names a host variable that is not set. -/
def assemble (vars : HostVars) (t : Transaction) : Option Request :=
  match t with
  | .raw w => some { op := w, a := 0, b := 0 }
  | .op i [] => if arity i = 0 then some { op := encode i, a := 0, b := 0 } else none
  | .op i [x] =>
    if arity i = 1 then (operandWord vars x).map (fun a => { op := encode i, a := a, b := 0 }) else none
  | .op i [x, y] =>
    if arity i = 2 then
      (operandWord vars x).bind fun a => (operandWord vars y).map fun b => { op := encode i, a := a, b := b }
    else none
  | .op _ _ => none

/-- The literal is one the operand position can hold: a decimal in the signed range for a signed operand and in the
unsigned range for an unsigned one, a hexadecimal word of 256 bits (R13, R72). -/
def operandFits (k : OperandKind) (o : Operand) : Bool :=
  match k, o with
  | .signed, .dec v => decide (InS v)
  | .unsigned, .dec v => decide (InU v)
  | _, .hex w => decide (w < 2 ^ 256)
  | _, _ => true

/-- A transaction is well formed when it has as many operands as the command reads and each one fits; `.op` is written for
reserved values only (R72). -/
def transactionWellFormed (t : Transaction) : Bool :=
  match t with
  | .raw w => !Command.assigned w
  | .op i [] => arity i == 0
  | .op i [x] => arity i == 1 && operandFits (operandA i) x
  | .op i [x, y] => arity i == 2 && operandFits (operandA i) x && operandFits (operandB i) y
  | .op _ _ => false

/-- The mnemonic of rule R63 in lower case (R72). -/
def asmName (i : Instr) : List Char :=
  match i with
  | .abs => ['a', 'b', 's']
  | .floor => ['f', 'l', 'o', 'o', 'r']
  | .ceil => ['c', 'e', 'i', 'l']
  | .frac => ['f', 'r', 'a', 'c']
  | .div => ['d', 'i', 'v']
  | .mul => ['m', 'u', 'l']
  | .msb => ['m', 's', 'b']
  | .ispow2 => ['i', 's', 'p', 'o', 'w', '2']
  | .nextpow2 => ['n', 'e', 'x', 't', 'p', 'o', 'w', '2']
  | .log2 => ['l', 'o', 'g', '2']
  | .ln => ['l', 'n']
  | .unit => ['u', 'n', 'i', 't']
  | .e => ['e']
  | .pi => ['p', 'i']
  | .muldiv => ['m', 'u', 'l', 'd', 'i', 'v']
  | .sqrt => ['s', 'q', 'r', 't']
  | .exp => ['e', 'x', 'p']
  | .exp2 => ['e', 'x', 'p', '2']

/-- The commands in the order of rule R63. -/
def allInstrs : List Instr :=
  [.abs, .floor, .ceil, .frac, .div, .mul, .msb, .ispow2, .nextpow2, .log2, .ln, .unit, .e, .pi, .muldiv, .sqrt, .exp, .exp2]

/-- The constants by name (R72). -/
def constNames : List (List Char × NamedConst) :=
  [("UNIT".toList, .unit), ("HALF_UNIT".toList, .halfUnit), ("TWICE_UNIT".toList, .twiceUnit), ("LN2".toList, .ln2),
   ("MAX_59x18".toList, .max), ("MIN_59x18".toList, .min), ("MAX_WHOLE_59x18".toList, .maxWhole),
   ("MIN_WHOLE_59x18".toList, .minWhole)]

/-- The value of a decimal digit. -/
def decDigit (c : Char) : Option Nat :=
  if '0' ≤ c ∧ c ≤ '9' then some (c.toNat - '0'.toNat) else none

/-- The value of a hexadecimal digit of either case. -/
def hexDigit (c : Char) : Option Nat :=
  if '0' ≤ c ∧ c ≤ '9' then some (c.toNat - '0'.toNat)
  else if 'a' ≤ c ∧ c ≤ 'f' then some (c.toNat - 'a'.toNat + 10)
  else if 'A' ≤ c ∧ c ≤ 'F' then some (c.toNat - 'A'.toNat + 10)
  else none

/-- A decimal numeral after its first digit; `_` separates digits and has no value (R12, R72). -/
def decTail (cs : List Char) (acc : Nat) : Option Nat :=
  match cs with
  | [] => some acc
  | c :: rest =>
    if c = '_' then decTail rest acc
    else (decDigit c).bind fun d => decTail rest (10 * acc + d)

/-- A decimal numeral: it begins with a digit (R12). -/
def readDec (cs : List Char) : Option Nat :=
  match cs with
  | [] => none
  | c :: rest => (decDigit c).bind fun d => decTail rest d

/-- The digits of a hexadecimal numeral after the first. -/
def hexTail (cs : List Char) (acc : Nat) : Option Nat :=
  match cs with
  | [] => some acc
  | c :: rest => (hexDigit c).bind fun d => hexTail rest (16 * acc + d)

/-- A hexadecimal numeral without its `0x`: at least one digit. -/
def readHex (cs : List Char) : Option Nat :=
  match cs with
  | [] => none
  | c :: rest => (hexDigit c).bind fun d => hexTail rest d

/-- An operand's text (R72). -/
def readOperand (cs : List Char) : Option Operand :=
  match cs with
  | '-' :: rest => (readDec rest).map fun n => .dec (-(n : Int))
  | '0' :: 'x' :: rest => (readHex rest).map .hex
  | 't' :: rest => (readDec rest).map .hostVar
  | _ =>
    match readDec cs with
    | some n => some (.dec n)
    | none => (constNames.lookup cs).map .named

/-- The text without the spaces before it. -/
def skipSpaces (cs : List Char) : List Char := cs.dropWhile (· == ' ')

/-- The text without the spaces around it. -/
def trimSpaces (cs : List Char) : List Char := (skipSpaces (skipSpaces cs).reverse).reverse

/-- The pieces of a text between commas; always at least one. -/
def splitCommas (cs : List Char) : List (List Char) :=
  match cs with
  | [] => [[]]
  | c :: rest =>
    if c = ',' then [] :: splitCommas rest
    else
      match splitCommas rest with
      | [] => [[c]]
      | piece :: more => (c :: piece) :: more

/-- The operands of a transaction, separated by commas; none where the text is empty (R72). -/
def readOperands (cs : List Char) : Option (List Operand) :=
  if trimSpaces cs = [] then some []
  else (splitCommas cs).mapM fun piece => readOperand (trimSpaces piece)

/-- A transaction's text: a mnemonic and its operands, or `.op 0xNN` (R72). -/
def readTransaction (cs : List Char) : Option Transaction :=
  let body := trimSpaces cs
  let word := body.takeWhile (· != ' ')
  let rest := body.dropWhile (· != ' ')
  if word = ['.', 'o', 'p'] then
    match trimSpaces rest with
    | ['0', 'x', h, l] => (readHex [h, l]).map fun n => .raw (BitVec.ofNat 8 n)
    | _ => none
  else
    (allInstrs.find? fun i => asmName i == word).bind fun i =>
      (readOperands rest).map fun args => .op i args

/-- The hexadecimal digit of a value below 16. -/
def hexChar (n : Nat) : Char :=
  if n < 10 then Char.ofNat (n + 48) else Char.ofNat (n - 10 + 97)

/-- `n` in exactly `digits` hexadecimal digits, the most significant first. -/
def hexText (digits n : Nat) : List Char :=
  match digits with
  | 0 => []
  | d + 1 => hexText d (n / 16) ++ [hexChar (n % 16)]

/-- The listing of a request, `op=0xNN a=<64 hex digits> b=<64 hex digits>` (R74). -/
def requestListing (q : Request) : List Char :=
  "op=0x".toList ++ hexText 2 q.op.toNat ++ " a=".toList ++ hexText 64 q.a.toNat ++ " b=".toList ++ hexText 64 q.b.toNat

/-- The name of a status value (R68). -/
def statusName (v : BitVec 2) : List Char :=
  if v = Status.ok.code then "OK".toList
  else if v = Status.domain.code then "DOMAIN".toList
  else if v = Status.range.code then "RANGE".toList
  else "ILLEGAL".toList

/-- The name of a cause value (R69); 12 to 15 are never produced and have none. -/
def causeName (v : BitVec 4) : Option (List Char) :=
  match v.toNat with
  | 0 => some "NONE".toList
  | 1 => some "LOG_NONPOS".toList
  | 2 => some "POW2_ZERO".toList
  | 3 => some "DIV_BY_ZERO".toList
  | 4 => some "ABS_MIN".toList
  | 5 => some "FLOOR_BELOW_MIN_WHOLE".toList
  | 6 => some "CEIL_ABOVE_MAX_WHOLE".toList
  | 7 => some "DIV_OVERFLOW".toList
  | 8 => some "MUL_OVERFLOW".toList
  | 9 => some "MUL_ROUND_OVERFLOW".toList
  | 10 => some "UNIMPLEMENTED".toList
  | 11 => some "RESERVED_OP".toList
  | _ => none

/-- The listing of a response, `status=<name> cause=<name> result=<64 hex digits>` (R74). -/
def responseListing (r : Response) : Option (List Char) :=
  (causeName r.cause).map fun c =>
    "status=".toList ++ statusName r.status ++ " cause=".toList ++ c ++ " result=".toList ++ hexText 64 r.result.toNat

end Sys2Proof.Machine
end

