-- ==== Sys2Proof/Machine/Script.lean ====
section
/-! DEFINITION. Host scripts (R73): what a program is on this hardware. Sequencing, guards and variables belong to the host
(R22, R23); the unit only answers one transaction at a time, and its answer is Exec of rule R64. Also the port values with
which a host carries one transaction through (R216 to R218). -/

namespace Sys2Proof.Machine

/-- One line, `t<n> <- <transaction>`, with an optional guard `if t<k>.status == OK:` (R73). -/
structure ScriptLine where
  /-- The guard's variable k. -/
  guard : Option Nat
  /-- The variable n that takes the response. -/
  dest : Nat
  /-- The transaction. -/
  body : Transaction
  deriving DecidableEq, Repr

/-- The line's transaction is issued and its response stored (R73). None when it does not assemble. -/
def issueLine (vars : HostVars) (l : ScriptLine) : Option HostVars :=
  (assemble vars l.body).map fun q => (l.dest, execWord q.op q.a q.b) :: vars

/-- One line (R73): a guard that is not OK skips the line. None, the script being stuck, when the line names a variable that
is not set (DESIGN CHOICE, safe, log entry 12). -/
def runLine (vars : HostVars) (l : ScriptLine) : Option HostVars :=
  match l.guard with
  | none => issueLine vars l
  | some k =>
    match vars.lookup k with
    | none => none
    | some r => if r.status = Status.ok.code then issueLine vars l else some vars

/-- The lines in order (R73). -/
def runScript (vars : HostVars) (ls : List ScriptLine) : Option HostVars :=
  match ls with
  | [] => some vars
  | l :: rest =>
    match runLine vars l with
    | none => none
    | some vars' => runScript vars' rest

/-- The text `t<n>` up to a separator that follows it. -/
def readVarBefore (cs sep : List Char) : Option (Nat × List Char) :=
  match cs with
  | 't' :: rest =>
    let digits := rest.takeWhile fun c => (decDigit c).isSome
    let after := rest.dropWhile fun c => (decDigit c).isSome
    if after.take sep.length = sep then (readDec digits).map fun n => (n, after.drop sep.length) else none
  | _ => none

/-- The text of an unguarded line (R73). -/
def readAssignment (guard : Option Nat) (cs : List Char) : Option ScriptLine :=
  (readVarBefore (skipSpaces cs) " <-".toList).bind fun (n, rest) =>
    (readTransaction rest).map fun t => { guard := guard, dest := n, body := t }

/-- The text of a line (R73). -/
def readLine (cs : List Char) : Option ScriptLine :=
  match skipSpaces cs with
  | 'i' :: 'f' :: ' ' :: rest =>
    (readVarBefore (skipSpaces rest) ".status == OK:".toList).bind fun (k, body) => readAssignment (some k) body
  | body => readAssignment none body

/-- The ports while a host presents a request, with `rsp_ready` held at 1 (R217, R218). -/
def presentPins (q : Request) : PortIn where
  rst := false
  reqValid := true
  reqOp := q.op
  reqA := q.a
  reqB := q.b
  rspReady := true

/-- The ports while a host waits for its response, with `rsp_ready` held at 1 (R218). -/
def awaitPins : PortIn :=
  { quietPins with rspReady := true }

/-- The port values that carry one request through an idle unit: one edge that accepts it, LAT edges of which the last is
the BUSY-to-DONE edge, and one edge that delivers the response (R28, R219, R221). -/
def transactionPins (q : Request) : List PortIn :=
  presentPins q :: List.replicate (Config.lat q.op q.a q.b + 1) awaitPins

end Sys2Proof.Machine
end

