-- ==== Sys2Proof/Safety.lean ====
section
/-! DEFINITION. What counts as a good run, in the terms the claims use: the events at the ports, the order in which responses
answer requests (R46), the host's duties on the request port (R217), and the invariant of the state. -/

namespace Sys2Proof.Machine

/-- What happens at one edge, seen at the ports. -/
inductive Event where
  /-- An edge with `rst = 1` (R211). -/
  | reset
  /-- The request on the ports is accepted (R26). -/
  | accepted (q : Request)
  /-- The BUSY-to-DONE edge (R28). -/
  | completed
  /-- The response on the ports is delivered (R27). -/
  | delivered (r : Response)
  /-- Nothing of these. -/
  | quiet
  deriving DecidableEq, Repr

/-- The request on the input ports at the coming edge (R26). -/
def State.portRequest (s : State) : Request :=
  { op := s.pins.reqOp, a := s.pins.reqA, b := s.pins.reqB }

/-- The captured request (R29). -/
def State.captured (s : State) : Request :=
  { op := s.capOp, a := s.capA, b := s.capB }

/-- The event of the coming edge. -/
def State.event (s : State) : Event :=
  if s.pins.rst then .reset
  else if s.accepts then .accepted s.portRequest
  else if s.completes then .completed
  else if s.delivers then .delivered s.rspRegs
  else .quiet

/-- The events of the next `k` edges, the first one first. -/
def portTrace (k : Nat) (s : State) : List Event :=
  match k with
  | 0 => []
  | n + 1 =>
    match step s with
    | .next t => s.event :: portTrace n t
    | .fault _ => []
    | .refused _ => []

/-- The input ports `k` edges after the coming one: listed where the list reaches that far, free beyond it. -/
def State.pinsAfter (s : State) (k : Nat) : PortIn :=
  match s.inputs[k]? with
  | some p => p
  | none => Config.hostPins (s.edges + k)

/-- The transaction a unit holds between acceptance and delivery (R46). -/
def State.inFlight (s : State) : Option Request :=
  if s.phase = .idle then none else some s.captured

/-- The events of a unit that holds `held` keep to rule R46: a request is accepted only when none is held, a response is
delivered only for the request held, and it is the Exec of that request. A reset discards what is held (R212). -/
def answersInOrder (held : Option Request) (es : List Event) : Prop :=
  match es with
  | [] => True
  | .reset :: rest => answersInOrder none rest
  | .accepted q :: rest => held = none ∧ answersInOrder (some q) rest
  | .delivered r :: rest =>
    (∃ q, held = some q ∧ r = execWord q.op q.a q.b) ∧ answersInOrder none rest
  | .completed :: rest => held ≠ none ∧ answersInOrder held rest
  | .quiet :: rest => answersInOrder held rest

/-- The host keeps its request stable over the next `k` edges, none of which accepts one (R217). -/
def hostKeepsRequest (k : Nat) (s : State) : Prop :=
  match k with
  | 0 => True
  | n + 1 =>
    s.accepts = false ∧
      ∀ t, step s = .next t →
        (s.pins.reqValid = true → t.pins.reqValid = true ∧ t.portRequest = s.portRequest) ∧ hostKeepsRequest n t

/-- What holds of the unit between any two edges. -/
structure UnitInv (s : State) : Prop where
  /-- While BUSY, the BUSY-to-DONE edge is at least 1 and at most LAT edges away (R219, R220). -/
  busy_counts : s.phase = .busy → 1 ≤ s.latLeft ∧ s.latLeft ≤ Config.lat s.capOp s.capA s.capB
  /-- Outside BUSY no such edge is awaited. -/
  others_rest : s.phase ≠ .busy → s.latLeft = 0
  /-- The response registers hold OK / NONE, or a cause of rule R69 with its own status and result 0 (R69, R71). -/
  codes_agree : (s.rspStatus = 0 ∧ s.rspCause = 0) ∨
    ∃ c : Cause, s.rspStatus = c.status.code ∧ s.rspCause = c.code ∧ s.rspResult = 0
  /-- In DONE the response registers hold Exec of the captured request (R30). -/
  done_answers : s.phase = .done → s.rspRegs = execWord s.capOp s.capA s.capB

end Sys2Proof.Machine
end

