-- ==== Sys2Proof/Certificates/Slice0/Obligations.lean ====
section
/-! DEFINITION. The statements for the provers. Each docstring names the rule or the spec's sentence it formalises. Where a
statement says that `exec` answers a next state, the hypotheses are on the state and the operands alone. A sentence that the
spec itself marks [derived] or [decision] is named so. -/

open Sys2Proof Sys2Proof.Machine

/-! Encoding. -/

/-- The rows of rule R63 as written there: command value, FAM, FN, and how A, B and the result are read. Every other value
is reserved. -/
def Obligations.CommandTableIsDecodedRowByRow : Prop :=
  let row : Command → Nat → Nat → Instr → OperandKind → OperandKind → ResultKind → Prop := fun op fam fn i a b r =>
    decode op = .ok i ∧ (commandFam op).toNat = fam ∧ (commandFn op).toNat = fn ∧ operandA i = a ∧ operandB i = b ∧
      resultKind i = r
  row 0x10 1 0 .abs .signed .ignored .fixed ∧
  row 0x11 1 1 .floor .signed .ignored .fixed ∧
  row 0x12 1 2 .ceil .signed .ignored .fixed ∧
  row 0x13 1 3 .frac .signed .ignored .fixed ∧
  row 0x20 2 0 .div .signed .signed .fixed ∧
  row 0x21 2 1 .mul .signed .signed .fixed ∧
  row 0x30 3 0 .msb .unsigned .ignored .unsigned ∧
  row 0x31 3 1 .ispow2 .unsigned .ignored .boolean ∧
  row 0x32 3 2 .nextpow2 .unsigned .ignored .unsigned ∧
  row 0x40 4 0 .log2 .signed .ignored .fixed ∧
  row 0x41 4 1 .ln .signed .ignored .fixed ∧
  row 0x50 5 0 .unit .ignored .ignored .fixed ∧
  row 0x51 5 1 .e .ignored .ignored .fixed ∧
  row 0x52 5 2 .pi .ignored .ignored .fixed ∧
  row 0x60 6 0 .muldiv .ignored .ignored .none ∧
  row 0x61 6 1 .sqrt .ignored .ignored .none ∧
  row 0x62 6 2 .exp .ignored .ignored .none ∧
  row 0x63 6 3 .exp2 .ignored .ignored .none ∧
  ∀ op : Command,
    op ∉ ([0x10, 0x11, 0x12, 0x13, 0x20, 0x21, 0x30, 0x31, 0x32, 0x40, 0x41, 0x50, 0x51, 0x52, 0x60, 0x61, 0x62,
      0x63] : List Command) → decode op = .error (.reservedOp op)

/-- Decoding and encoding agree: every command is the reading of its own word, a word that reads as a command is that
command's word, the assigned words are exactly the words that decode, and there are 18 of them (R61, R63, R64). -/
def Obligations.DecodeAndEncodeAgree : Prop :=
  (∀ i : Instr, i.wellFormed = true ∧ decode (encode i) = .ok i) ∧
  (∀ (op : Command) (i : Instr), decode op = .ok i → op = encode i) ∧
  (∀ op : Command, Command.assigned op = true ↔ ∃ i, decode op = .ok i) ∧
  (∀ op : Command, Command.assigned op = false → decode op = .error (.reservedOp op)) ∧
  ((List.range 256).filter fun n => Command.assigned (BitVec.ofNat 8 n)).length = 18

/-- R64: Exec is defined for every 8-bit value: the 14 computing values run their operation, 0x60 to 0x63 answer
UNIMPLEMENTED, and the reserved intervals, written out as the rule writes them, answer RESERVED_OP. -/
def Obligations.ExecOfEveryCommandValue : Prop :=
  (∀ (i : Instr) (a b : Word), resultKind i ≠ .none → execWord (encode i) a b = respond (outcome i a b)) ∧
  (∀ (op : Command) (a b : Word), 0x60 ≤ op.toNat ∧ op.toNat ≤ 0x63 →
    execWord op a b = { status := 3, cause := 10, result := 0 }) ∧
  (∀ (op : Command) (a b : Word),
    op.toNat ≤ 0x0F ∨ (0x14 ≤ op.toNat ∧ op.toNat ≤ 0x1F) ∨ (0x22 ≤ op.toNat ∧ op.toNat ≤ 0x2F) ∨
      (0x33 ≤ op.toNat ∧ op.toNat ≤ 0x3F) ∨ (0x42 ≤ op.toNat ∧ op.toNat ≤ 0x4F) ∨
      (0x53 ≤ op.toNat ∧ op.toNat ≤ 0x5F) ∨ 0x64 ≤ op.toNat →
    execWord op a b = { status := 3, cause := 11, result := 0 })

/-! The step: phases, ports, capture and response registers. -/

/-- At the BUSY-to-DONE edge, a captured word that decodes to a command makes the step be `exec` of that command on the state
whose ports have moved on by one edge (`State.tick`, which changes no register), at any state whose coming edge has
`rst = 0` (R30, R64). The next command is the one captured: the unit has no program counter to move (R23). That the
edge is told by a count `latLeft` of at most 1 is log entries 3 and 14 (DESIGN CHOICE). -/
def Obligations.StepRunsTheDecodedCommand : Prop :=
  ∀ (s : State) (i : Instr), s.pins.rst = false → s.phase = .busy → s.latLeft ≤ 1 → decode s.capOp = .ok i →
    step s = exec i s.tick

/-- At the BUSY-to-DONE edge of a reserved command value, the step answers ILLEGAL / RESERVED_OP with result 0 (R64). The
edge is told by the count `latLeft` (log entries 3 and 14, DESIGN CHOICE). -/
def Obligations.StepAnswersReservedCommands : Prop :=
  ∀ s : State, s.pins.rst = false → s.phase = .busy → s.latLeft ≤ 1 → Command.assigned s.capOp = false →
    step s = .next (s.tick.present { status := 3, cause := 11, result := 0 })

/-- No edge stops the machine: every operation is total (R19) and BUSY never hangs on an error (R183, R220). -/
def Obligations.EveryEdgeHasANextState : Prop :=
  ∀ s : State, ∃ t, step s = .next t

/-- R36 and R212, from any phase and any registers (so after power-on too, R213): after an edge with `rst = 1` the phase is
IDLE, the response registers are 0, `rsp_valid = 0`, and `req_ready` is 1 once `rst = 0`. The capture registers are
unspecified and not constrained. -/
def Obligations.ResetEdgeFromAnyState : Prop :=
  ∀ s : State, s.pins.rst = true →
    ∃ t, step s = .next t ∧ t.phase = .idle ∧ t.rspStatus = 0 ∧ t.rspCause = 0 ∧ t.rspResult = 0 ∧
      t.rspValid = false ∧ t.rspPorts = none ∧ (t.pins.rst = false → t.reqReady = true)

/-- The state right after reset: the values rule R36 gives. The capture registers, which R36 leaves unspecified, are zero by
the model's choice (log entry 1) and are not claimed here. -/
def Obligations.ResetStateHasTheGivenValues : Prop :=
  State.reset.phase = .idle ∧ State.reset.rspStatus = 0 ∧ State.reset.rspCause = 0 ∧ State.reset.rspResult = 0 ∧
    State.reset.rspPorts = none

/-- R216: at an edge with `rst = 0`, `req_valid = 1` and `req_ready = 1` the capture registers take the port values and the
phase becomes BUSY; while `req_ready = 0`, the request ports have no effect at all. -/
def Obligations.RequestsAreTakenOnlyWhenReady : Prop :=
  (∀ s : State, s.pins.rst = false → s.pins.reqValid = true → s.reqReady = true →
    ∃ t, step s = .next t ∧ t.phase = .busy ∧ t.capOp = s.pins.reqOp ∧ t.capA = s.pins.reqA ∧ t.capB = s.pins.reqB ∧
      t.rspRegs = s.rspRegs) ∧
  ∀ (s : State) (p : PortIn) (rest : List PortIn) (v : Bool) (op : Command) (a b : Word),
    s.inputs = p :: rest → s.reqReady = false →
      step { s with inputs := { p with reqValid := v, reqOp := op, reqA := a, reqB := b } :: rest } = step s

/-- R28: each phase change has its edge, and at any other edge the phase does not change. The clauses on `latLeft` are the
model's way to count the LAT edges of R28 and R219 (log entry 3, DESIGN CHOICE): LAT at acceptance, one less at each BUSY
edge, and the BUSY-to-DONE edge is the one at which the count is at most 1; that a BUSY state with count 0, which no run
reaches, completes too is log entry 14 (DESIGN CHOICE). -/
def Obligations.PhaseChangesOnlyAtItsEdges : Prop :=
  ∀ s t : State, step s = .next t →
    (s.accepts = true →
      s.phase = .idle ∧ t.phase = .busy ∧ t.latLeft = Config.lat s.pins.reqOp s.pins.reqA s.pins.reqB ∧ 1 ≤ t.latLeft) ∧
    (s.completes = true → s.phase = .busy ∧ s.latLeft ≤ 1 ∧ t.phase = .done) ∧
    (s.delivers = true → s.phase = .done ∧ t.phase = .idle) ∧
    (s.pins.rst = true → t.phase = .idle) ∧
    (s.accepts = false → s.completes = false → s.delivers = false → s.pins.rst = false →
      t.phase = s.phase ∧ (s.phase = .busy → t.latLeft + 1 = s.latLeft))

/-- R29: the capture registers take the ports at the acceptance edge and hold until the next one (a reset edge, after which
R36 leaves them unspecified, apart); and a command reads them and never the live request ports: its answer is the same
whatever the ports carry. -/
def Obligations.CaptureRegistersFeedTheCommand : Prop :=
  (∀ s t : State, step s = .next t → s.accepts = true → t.captured = s.portRequest) ∧
  (∀ s t : State, step s = .next t → s.accepts = false → s.pins.rst = false → t.captured = s.captured) ∧
  ∀ (i : Instr) (s t u : State) (ps : List PortIn) (n : Nat),
    exec i s = .next t → exec i { s with inputs := ps, edges := n } = .next u → u.rspRegs = t.rspRegs

/-- R30: the response registers take Exec(CAP_OP, CAP_A, CAP_B) at the BUSY-to-DONE edge, change at no other edge without
reset (so not while the phase is DONE), and drive the response ports while a response is presented. -/
def Obligations.ResponseRegistersHoldExec : Prop :=
  ∀ s t : State, step s = .next t →
    (s.completes = true → t.phase = .done ∧ t.rspRegs = execWord s.capOp s.capA s.capB) ∧
    (s.completes = false → s.pins.rst = false → t.rspRegs = s.rspRegs) ∧
    (t.phase = .done → t.pins.rst = false → t.rspPorts = some t.rspRegs)

/-- R34, R35: the two output handshake ports; R37: the response ports have a value only while `rsp_valid = 1`. -/
def Obligations.HandshakeOutputsFollowPhaseAndReset : Prop :=
  ∀ s : State,
    (s.reqReady = true ↔ s.phase = .idle ∧ s.pins.rst = false) ∧
    (s.rspValid = true ↔ s.phase = .done ∧ s.pins.rst = false) ∧
    (s.rspPorts = none ↔ s.rspValid = false)

/-- R218: a presented response is held unchanged, however long the host leaves `rsp_ready` at 0, and the first edge with
`rsp_ready = 1` delivers it and makes the phase IDLE. -/
def Obligations.ResponseIsHeldUntilTaken : Prop :=
  (∀ (s : State) (k : Nat), s.phase = .done →
    (∀ j, j < k → (s.pinsAfter j).rst = false ∧ (s.pinsAfter j).rspReady = false) →
    ∃ t, Host.Core.run Sys2Proof.core k s = .next t ∧ t.phase = .done ∧ t.rspRegs = s.rspRegs ∧
      t.pins = s.pinsAfter k) ∧
  ∀ s : State, s.phase = .done → s.pins.rst = false → s.pins.rspReady = true →
    s.delivers = true ∧ ∃ t, step s = .next t ∧ t.phase = .idle

/-- R221 and R186 (the spec marks R221 [derived]): the edge that delivers a response accepts no request, and after it the
unit is IDLE whatever status the response had, so that the next edge without reset accepts whatever request is there. -/
def Obligations.NextRequestWaitsForDelivery : Prop :=
  ∀ s : State, s.delivers = true → s.accepts = false ∧
    ∃ t, step s = .next t ∧ t.phase = .idle ∧ (t.pins.rst = false → t.accepts = t.pins.reqValid)

/-- R219 and R220: without a reset in between, an accepted request is BUSY for LAT edges and then in DONE with its Exec,
whatever LAT is. -/
def Obligations.AcceptedRequestIsDoneAfterLat : Prop :=
  ∀ s : State, s.accepts = true →
    let q := s.portRequest
    let lat := Config.lat q.op q.a q.b
    (∀ j, 1 ≤ j → j ≤ lat → (s.pinsAfter j).rst = false) →
      1 ≤ lat ∧
      (∀ k, 1 ≤ k → k ≤ lat → ∃ u, Host.Core.run Sys2Proof.core k s = .next u ∧ u.phase = .busy ∧ u.captured = q) ∧
      ∃ t, Host.Core.run Sys2Proof.core (lat + 1) s = .next t ∧ t.phase = .done ∧ t.captured = q ∧
        t.rspRegs = execWord q.op q.a q.b

/-- A whole transaction as a host carries it (R73, R216 to R219): from IDLE, the port values `transactionPins q` deliver
exactly one response, Exec of q, after LAT + 2 edges, and leave the unit IDLE with the ports that follow. -/
def Obligations.HostTransactionDeliversExec : Prop :=
  ∀ (s : State) (q : Request) (rest : List PortIn), s.phase = .idle → s.inputs = transactionPins q ++ rest →
    ∃ t, Host.Core.run Sys2Proof.core (Config.lat q.op q.a q.b + 2) s = .next t ∧ t.phase = .idle ∧ t.inputs = rest ∧
      (portTrace (Config.lat q.op q.a q.b + 2) s).filter (fun e => decide (e ≠ .quiet ∧ e ≠ .completed)) =
        [.accepted q, .delivered (execWord q.op q.a q.b)]

/-- R46: over any number of edges, under any host and any resets, from any state that meets the invariant, responses are
delivered in the order the requests were accepted, each one the Exec of the request before it, never two requests at
once. -/
def Obligations.ResponsesAnswerRequestsInOrder : Prop :=
  ∀ (s : State) (k : Nat), UnitInv s → answersInOrder s.inFlight (portTrace k s)

/-- Every step keeps the invariant of the state: the LAT count, the model's own (log entry 3, DESIGN CHOICE), is right, the response codes agree (R69, R71), and in DONE
the response registers hold Exec of the captured request (R30). -/
def Obligations.EveryStepKeepsTheUnitInvariant : Prop :=
  ∀ s t : State, UnitInv s → step s = .next t → UnitInv t

/-- The state after reset meets the invariant. -/
def Obligations.ResetStateMeetsTheUnitInvariant : Prop :=
  UnitInv State.reset

/-- R217: while the host keeps its request stable, the request accepted in the end is the one first presented. -/
def Obligations.StableRequestIsTheOneCaptured : Prop :=
  ∀ (s t u : State) (k : Nat), hostKeepsRequest k s → s.pins.reqValid = true →
    Host.Core.run Sys2Proof.core k s = .next t → t.accepts = true → step t = .next u → u.captured = s.portRequest

/-- The frame and the completion of all 18 commands: from every state `exec` answers a next state in which the phase is
DONE, the response registers hold the response to the command's outcome on the captured operands, and everything else is
unchanged: the capture registers, the ports and the edge count (R19, R30, R183). There is no memory, flag, general or
control register besides (R22 to R25, R41). -/
def Obligations.EveryCommandCompletesAndKeepsItsFrame : Prop :=
  ∀ (i : Instr) (s : State), ∃ t, exec i s = .next t ∧ t.phase = .done ∧
    t.rspRegs = respond (outcome i s.capA s.capB) ∧ t.capOp = s.capOp ∧ t.capA = s.capA ∧ t.capB = s.capB ∧
    t.inputs = s.inputs ∧ t.edges = s.edges ∧ t.latLeft = 0

/-- R32: the outcome of a transaction depends only on its captured words: two BUSY-to-DONE edges with the same captured
words give the same response, whatever else the two states hold. -/
def Obligations.OutcomeDependsOnlyOnCapturedWords : Prop :=
  ∀ s s' t t' : State, s.completes = true → s'.completes = true → s.captured = s'.captured →
    step s = .next t → step s' = .next t' → t.rspRegs = t'.rspRegs

/-- R62: a command's answer does not depend on an operand it does not read; MUL and DIV read A as x and B as y. -/
def Obligations.UnreadOperandsAreIgnored : Prop :=
  (∀ (i : Instr) (a a' b b' : Word), (operandA i = .ignored ∨ a = a') → (operandB i = .ignored ∨ b = b') →
    execWord (encode i) a b = execWord (encode i) a' b') ∧
  (∀ i : Instr, operandB i ≠ .ignored ↔ i = .div ∨ i = .mul) ∧
  (∀ i : Instr, operandA i = .ignored ↔ i = .unit ∨ i = .e ∨ i = .pi ∨ resultKind i = .none) ∧
  (∀ a b : Word, execWord (encode .div) a b = respond ((fDiv (sval a) (sval b)).map enc) ∧
    execWord (encode .mul) a b = respond ((fMul (sval a) (sval b)).map enc))

/-! Errors. -/

/-- R69, R71: of every command value and all operands, the status is a function of the cause, the causes 12 to 15 never
occur, and an error's result is 0. -/
def Obligations.CauseDecidesStatusAndErrorsHaveNoResult : Prop :=
  ∀ (op : Command) (a b : Word),
    let r := execWord op a b
    (r.cause.toNat = 0 ∧ r.status = 0 ∨ 1 ≤ r.cause.toNat ∧ r.cause.toNat ≤ 3 ∧ r.status = 1 ∨
      4 ≤ r.cause.toNat ∧ r.cause.toNat ≤ 9 ∧ r.status = 2 ∨ 10 ≤ r.cause.toNat ∧ r.cause.toNat ≤ 11 ∧ r.status = 3) ∧
    (r.status ≠ 0 → r.result = 0)

/-- R182 with the order of R185: each cause is reported exactly under its condition, with the status it belongs to. -/
def Obligations.EachCauseIsRaisedExactlyByItsCondition : Prop :=
  ∀ (op : Command) (a b : Word),
    let c := (execWord op a b).cause
    let x := sval a
    let y := sval b
    (c = 1 ↔ (op = 0x40 ∨ op = 0x41) ∧ x ≤ 0) ∧
    (c = 2 ↔ (op = 0x31 ∨ op = 0x32) ∧ uval a = 0) ∧
    (c = 3 ↔ op = 0x20 ∧ y = 0 ∧ InS (x * UNIT)) ∧
    (c = 4 ↔ op = 0x10 ∧ x = MIN_59x18) ∧
    (c = 5 ↔ op = 0x11 ∧ x < MIN_WHOLE_59x18) ∧
    (c = 6 ↔ op = 0x12 ∧ x > MAX_WHOLE_59x18) ∧
    (c = 7 ↔ op = 0x20 ∧ ¬ InS (x * UNIT)) ∧
    (c = 8 ↔ op = 0x21 ∧ ¬ InS (x * y)) ∧
    (c = 9 ↔ op = 0x21 ∧ InS (x * y) ∧ ¬ InS (if x > 0 then x * y + HALF_UNIT else x * y - HALF_UNIT)) ∧
    (c = 10 ↔ 0x60 ≤ op.toNat ∧ op.toNat ≤ 0x63) ∧
    (c = 11 ↔ Command.assigned op = false) ∧
    ((execWord op a b).status = 0 ↔ c = 0) ∧
    ((execWord op a b).status = 1 ↔ c = 1 ∨ c = 2 ∨ c = 3) ∧
    ((execWord op a b).status = 2 ↔ c = 4 ∨ c = 5 ∨ c = 6 ∨ c = 7 ∨ c = 8 ∨ c = 9) ∧
    ((execWord op a b).status = 3 ↔ c = 10 ∨ c = 11)

/-- R183: when the captured command raises an error, the BUSY-to-DONE edge writes its status, its cause and result 0, and
nothing else changes but the phase, the LAT count and the ports. -/
def Obligations.ErrorResponseWritesStatusCauseAndZero : Prop :=
  ∀ (s : State) (i : Instr) (c : Cause), s.completes = true → decode s.capOp = .ok i →
    outcome i s.capA s.capB = .error c →
    ∃ t, step s = .next t ∧ t.phase = .done ∧ t.rspStatus = c.status.code ∧ t.rspCause = c.code ∧ t.rspResult = 0 ∧
      t.captured = s.captured ∧ t.inputs = s.inputs.tail

/-- Every operation but NEXTPOW2 keeps its result inside the signed range, so that the result word reads back as the value
computed: no silent wrap (R16, 90_conflicts.md C5; the spec marks the range facts of the single rules [derived]). -/
def Obligations.SignedResultsNeverWrap : Prop :=
  ∀ x y v : Int, InS x → InS y →
    (fAbs x = .ok v ∨ fFloor x = .ok v ∨ fCeil x = .ok v ∨ fFrac x = .ok v ∨ fDiv x y = .ok v ∨ fMul x y = .ok v ∨
      fLog2 x = .ok v ∨ fLn x = .ok v) → InS v ∧ sval (enc v) = v

/-! The number format. -/

/-- R9: the whole-value bounds are the largest and the smallest multiple of UNIT in the signed range. The decimal value, the
distances to MAX_59x18 and MIN_59x18, MIN_WHOLE_59x18 = −MAX_WHOLE_59x18 and that no multiple lies beyond are sentences R9
marks [derived: from rule R8 and the document's definition] and [derived: from this rule]. -/
def Obligations.WholeBoundsAreTheExtremeMultiples : Prop :=
  MAX_WHOLE_59x18 = 57896044618658097711785492504343953926634992332820282019728000000000000000000 ∧
  UNIT ∣ MAX_WHOLE_59x18 ∧ UNIT ∣ MIN_WHOLE_59x18 ∧ InS MAX_WHOLE_59x18 ∧ InS MIN_WHOLE_59x18 ∧
  (∀ m : Int, UNIT ∣ m → InS m → MIN_WHOLE_59x18 ≤ m ∧ m ≤ MAX_WHOLE_59x18) ∧
  MAX_WHOLE_59x18 = MAX_59x18 - 792003956564819967 ∧ MIN_WHOLE_59x18 = MIN_59x18 + 792003956564819968 ∧
  MIN_WHOLE_59x18 = -MAX_WHOLE_59x18

/-- R14: the truncating quotient is sign(a)·sign(b)·⌊|a| / |b|⌋, and the remainder takes the sign of a and is smaller than
b. -/
def Obligations.TruncatingDivisionFollowsItsFormula : Prop :=
  ∀ a b : Int, b ≠ 0 →
    tdiv a b = a.sign * b.sign * ((a.natAbs / b.natAbs : Nat) : Int) ∧ trem a b = a - b * tdiv a b ∧
    |trem a b| < |b| ∧ (0 ≤ a → 0 ≤ trem a b) ∧ (a ≤ 0 → trem a b ≤ 0)

/-! Family 1. -/

/-- R81. -/
def Obligations.AbsGivesTheMagnitude : Prop :=
  (∀ s : State, sval s.capA = MIN_59x18 → exec .abs s = .next (s.present { status := 2, cause := 4, result := 0 })) ∧
  (∀ s : State, sval s.capA ≠ MIN_59x18 →
    ∃ w, exec .abs s = .next (s.present { status := 0, cause := 0, result := w }) ∧ sval w = |sval s.capA|) ∧
  encode .abs = 0x10

/-- R82: below the bound an error, otherwise the greatest whole value that is at most x. -/
def Obligations.FloorGivesTheWholeValueBelow : Prop :=
  (∀ s : State, sval s.capA < MIN_WHOLE_59x18 →
    exec .floor s = .next (s.present { status := 2, cause := 5, result := 0 })) ∧
  (∀ s : State, MIN_WHOLE_59x18 ≤ sval s.capA →
    ∃ w, exec .floor s = .next (s.present { status := 0, cause := 0, result := w }) ∧
      UNIT ∣ sval w ∧ sval w ≤ sval s.capA ∧ sval s.capA < sval w + UNIT) ∧
  encode .floor = 0x11

/-- R83: above the bound an error, otherwise the least whole value that is at least x. -/
def Obligations.CeilGivesTheWholeValueAbove : Prop :=
  (∀ s : State, MAX_WHOLE_59x18 < sval s.capA →
    exec .ceil s = .next (s.present { status := 2, cause := 6, result := 0 })) ∧
  (∀ s : State, sval s.capA ≤ MAX_WHOLE_59x18 →
    ∃ w, exec .ceil s = .next (s.present { status := 0, cause := 0, result := w }) ∧
      UNIT ∣ sval w ∧ sval s.capA ≤ sval w ∧ sval w < sval s.capA + UNIT) ∧
  encode .ceil = 0x12

/-- R84: the truncating remainder by UNIT: it differs from x by a whole value, is smaller than UNIT, and its sign follows
x. -/
def Obligations.FracGivesTheTruncatingRemainder : Prop :=
  (∀ s : State,
    ∃ w, exec .frac s = .next (s.present { status := 0, cause := 0, result := w }) ∧
      UNIT ∣ sval s.capA - sval w ∧ |sval w| < UNIT ∧ (0 ≤ sval s.capA → 0 ≤ sval w) ∧
      (sval s.capA ≤ 0 → sval w ≤ 0)) ∧
  encode .frac = 0x13

/-- The laws of family 1 that 41_rounding.md gives as R85 and marks [derived]: the round trip of frac and floor, that
x − frac(x) is the truncation of x toward zero (the whole value nearest to x among those no farther from zero and on x's side
of it), and that a whole value is a fixed point of floor and ceil. -/
def Obligations.FloorCeilFracLaws : Prop :=
  (∀ x f r : Int, fFloor x = .ok f → fFrac x = .ok r → 0 ≤ x → r + f = x) ∧
  (∀ x f r : Int, fFloor x = .ok f → fFrac x = .ok r → x < 0 → ¬ UNIT ∣ x → r + f = x - UNIT) ∧
  (∀ x f r : Int, fFloor x = .ok f → fFrac x = .ok r → x < 0 → UNIT ∣ x → r + f = x) ∧
  (∀ x r : Int, fFrac x = .ok r →
    UNIT ∣ x - r ∧ |x - r| ≤ |x| ∧ |x| < |x - r| + UNIT ∧ 0 ≤ (x - r) * x) ∧
  (∀ x f : Int, InS x → fFloor x = .ok f → fFloor f = .ok f ∧ fCeil f = .ok f) ∧
  (∀ x c : Int, InS x → fCeil x = .ok c → fCeil c = .ok c ∧ fFloor c = .ok c)

/-! Family 2. -/

/-- R101: the range check of the scaled dividend first, then the divisor, then the quotient truncated toward zero. -/
def Obligations.DivTruncatesTheScaledQuotient : Prop :=
  (∀ s : State, ¬ InS (sval s.capA * UNIT) →
    exec .div s = .next (s.present { status := 2, cause := 7, result := 0 })) ∧
  (∀ s : State, InS (sval s.capA * UNIT) → sval s.capB = 0 →
    exec .div s = .next (s.present { status := 1, cause := 3, result := 0 })) ∧
  (∀ s : State, InS (sval s.capA * UNIT) → sval s.capB ≠ 0 →
    ∃ w, exec .div s = .next (s.present { status := 0, cause := 0, result := w }) ∧
      |sval w| * |sval s.capB| ≤ |sval s.capA * UNIT| ∧ |sval s.capA * UNIT| < (|sval w| + 1) * |sval s.capB| ∧
      0 ≤ sval w * (sval s.capA * sval s.capB)) ∧
  encode .div = 0x20

/-- Corner cases and laws of DIV that 42_muldiv.md gives in R101 and R103 and marks [derived]: when the scaled dividend
overflows, the truncation error, and that div is odd in each argument. -/
def Obligations.DivRangeErrorBoundAndOddness : Prop :=
  (∀ x : Int, ¬ InS (x * UNIT) ↔ |x| > 57896044618658097711785492504343953926634992332820282019728) ∧
  (∀ x y q : Int, fDiv x y = .ok q → |q * y - x * UNIT| < |y|) ∧
  (∀ x y q : Int, fDiv x y = .ok q → fDiv (-x) y = .ok (-q) ∧ fDiv x (-y) = .ok (-q))

/-- R102: the two range checks in their order, HALF_UNIT added when x > 0 and subtracted when x ≤ 0 (x = 0 too), and the
truncation by UNIT. -/
def Obligations.MulRoundsOnTheSignOfItsFirstOperand : Prop :=
  (∀ s : State, ¬ InS (sval s.capA * sval s.capB) →
    exec .mul s = .next (s.present { status := 2, cause := 8, result := 0 })) ∧
  (∀ s : State, InS (sval s.capA * sval s.capB) → 0 < sval s.capA →
    MAX_59x18 - HALF_UNIT < sval s.capA * sval s.capB →
    exec .mul s = .next (s.present { status := 2, cause := 9, result := 0 })) ∧
  (∀ s : State, InS (sval s.capA * sval s.capB) → sval s.capA ≤ 0 →
    sval s.capA * sval s.capB < MIN_59x18 + HALF_UNIT →
    exec .mul s = .next (s.present { status := 2, cause := 9, result := 0 })) ∧
  (∀ (s : State) (q : Int), InS (sval s.capA * sval s.capB) →
    (0 < sval s.capA ∧ q = sval s.capA * sval s.capB + HALF_UNIT ∨
      sval s.capA ≤ 0 ∧ q = sval s.capA * sval s.capB - HALF_UNIT) → InS q →
    ∃ w, exec .mul s = .next (s.present { status := 0, cause := 0, result := w }) ∧
      |sval w| * UNIT ≤ |q| ∧ |q| < (|sval w| + 1) * UNIT ∧ 0 ≤ sval w * q) ∧
  encode .mul = 0x21

/-- R104, first two laws (the spec marks R104 [derived]; 90_conflicts.md C2): UNIT is a right identity exactly while x·UNIT
is in range, and a left identity for x ≥ 0 but not for −1. -/
def Obligations.MulByUnitIsTheIdentityInRange : Prop :=
  (∀ x : Int, |x| ≤ 57896044618658097711785492504343953926634992332820282019728 → fMul x UNIT = .ok x) ∧
  (∀ x : Int, |x| > 57896044618658097711785492504343953926634992332820282019728 → fMul x UNIT = .error .mulOverflow) ∧
  (∀ x : Int, 0 ≤ x → x ≤ 57896044618658097711785492504343953926634992332820282019728 → fMul UNIT x = .ok x) ∧
  fMul UNIT (-1) = .ok 0

/-- R104, commutation and rounding error (marked [derived] there): with the same strict sign mul commutes; for y ≥ 0 or
x = 0 the error is at most 1/2 and ties go away from zero; for y < 0 and x ≠ 0 it is below 3/2. -/
def Obligations.MulRoundingErrorAndCommutation : Prop :=
  (∀ x y : Int, (0 < x ∧ 0 < y ∨ x < 0 ∧ y < 0) → fMul x y = fMul y x) ∧
  (∀ x y m : Int, fMul x y = .ok m → (0 ≤ y ∨ x = 0) →
    2 * |m * UNIT - x * y| ≤ UNIT ∧ (2 * |m * UNIT - x * y| = UNIT → |x * y| < |m * UNIT|)) ∧
  (∀ x y m : Int, fMul x y = .ok m → y < 0 → x ≠ 0 → 2 * |m * UNIT - x * y| < 3 * UNIT)

/-- R104, the round trip (marked [derived] there; 90_conflicts.md C3, C11): mul(div(x, y), y) differs from x by less than
|y|/UNIT + 3/2, so by at most 2 when |y| ≤ UNIT. -/
def Obligations.DivThenMulStaysWithinTheBound : Prop :=
  ∀ x y d m : Int, fDiv x y = .ok d → fMul d y = .ok m →
    2 * UNIT * |m - x| < 2 * |y| + 3 * UNIT ∧ (|y| ≤ UNIT → |m - x| ≤ 2)

/-! Family 3. -/

/-- R121: never an error; 0 for 0 (its pseudocode); otherwise the index of the highest set bit, which R121 marks [derived:
from this rule]. -/
def Obligations.MsbGivesTheHighestSetBit : Prop :=
  (∀ s : State, uval s.capA = 0 → exec .msb s = .next (s.present { status := 0, cause := 0, result := 0 })) ∧
  (∀ s : State, uval s.capA ≠ 0 →
    ∃ w, exec .msb s = .next (s.present { status := 0, cause := 0, result := w }) ∧ uval w ≤ 255 ∧
      2 ^ uval w ≤ uval s.capA ∧ uval s.capA < 2 ^ (uval w + 1)) ∧
  encode .msb = 0x30

/-- R122: an error for 0, 1 when exactly one bit is set, else 0. -/
def Obligations.Ispow2TellsOneSetBit : Prop :=
  (∀ s : State, uval s.capA = 0 → exec .ispow2 s = .next (s.present { status := 1, cause := 2, result := 0 })) ∧
  (∀ s : State, (∃! k : Nat, (uval s.capA).testBit k = true) →
    exec .ispow2 s = .next (s.present { status := 0, cause := 0, result := 1 })) ∧
  (∀ s : State, uval s.capA ≠ 0 → (¬ ∃! k : Nat, (uval s.capA).testBit k = true) →
    exec .ispow2 s = .next (s.present { status := 0, cause := 0, result := 0 })) ∧
  encode .ispow2 = 0x31

/-- R123 with 90_conflicts.md C4 to C6: an error for 0; up to 2^255 the smallest power of two that is at least u; above
2^255 the silent wrap to 0 with status OK. -/
def Obligations.Nextpow2RoundsUpAndWraps : Prop :=
  (∀ s : State, uval s.capA = 0 → exec .nextpow2 s = .next (s.present { status := 1, cause := 2, result := 0 })) ∧
  (∀ s : State, 1 ≤ uval s.capA → uval s.capA ≤ 2 ^ 255 →
    ∃ w k, exec .nextpow2 s = .next (s.present { status := 0, cause := 0, result := w }) ∧ uval w = 2 ^ k ∧
      uval s.capA ≤ uval w ∧ ∀ j : Nat, uval s.capA ≤ 2 ^ j → uval w ≤ 2 ^ j) ∧
  (∀ s : State, 2 ^ 255 < uval s.capA → exec .nextpow2 s = .next (s.present { status := 0, cause := 0, result := 0 })) ∧
  encode .nextpow2 = 0x32

/-- The helpers: SPREAD sets every bit below the highest set bit (a [derived] sentence of R125), and ALIGN is the logical
shift of the word of a positive value (R124). -/
def Obligations.SpreadAndAlignHelpers : Prop :=
  spread 0 = 0 ∧
  (∀ v : Nat, 0 < v → v < 2 ^ 256 → spread v = 2 ^ (fMsb v + 1) - 1) ∧
  (∀ (x : Int) (n : Nat), 0 < x → InS x → n ≤ 255 →
    align x n = (lsr (uval (enc x)) n : Int) ∧ 0 ≤ align x n ∧ InS (align x n))

/-! Family 4. -/

/-- R141 with its stages R142 to R146 in closed form: LOG_NONPOS for x ≤ 0, otherwise sign·(n·UNIT plus the delta of every
iteration whose square reaches TWICE_UNIT), over exactly 59 iterations of the normalised value. The closed form is derived:
that n is the floor of log2 is marked [derived] in R143, that there are exactly 59 iterations and that no value leaves the
range is marked [derived] in R146, and that the early exit of R141 changes nothing is the statement's own inference. -/
def Obligations.Log2IsTheSumOfItsBits : Prop :=
  (∀ s : State, sval s.capA ≤ 0 → exec .log2 s = .next (s.present { status := 1, cause := 1, result := 0 })) ∧
  (∀ s : State, 0 < sval s.capA →
    let x' : Int := if sval s.capA < UNIT then 10 ^ 36 / sval s.capA else sval s.capA
    let sign : Int := if sval s.capA < UNIT then -1 else 1
    let n : Nat := Nat.log2 (x' / UNIT).toNat
    let square : Int → Int := fun y => y * y / UNIT
    let next : Int → Int := fun y => if square y ≥ TWICE_UNIT then square y / 2 else square y
    let y : Nat → Int := fun k => next^[k] (x' / 2 ^ n)
    ∃ w, exec .log2 s = .next (s.present { status := 0, cause := 0, result := w }) ∧
      sval w = sign * (n * UNIT + ∑ k ∈ Finset.range 59, if square (y k) ≥ TWICE_UNIT then HALF_UNIT / 2 ^ k else 0)) ∧
  encode .log2 = 0x40

/-- The stages before the loop (R142 to R144, whose range facts the spec marks [derived]): after stage 1 the value is at
least UNIT and in range, stage 2 finds n with 2^n·UNIT ≤ x' < 2^(n+1)·UNIT and n ≤ 195 (59 in the reciprocal domain), and
stage 3 leaves UNIT ≤ y < TWICE_UNIT. -/
def Obligations.LogStagesNormalise : Prop :=
  ∀ x : Int, 0 < x → InS x →
    ∃ sign x', logReciprocal x = .ok (sign, x') ∧
      (x < UNIT → sign = -1 ∧ x' = tdiv (10 ^ 36) x ∧ x' ≤ 10 ^ 36 ∧ logIntPart x' ≤ 59) ∧
      (UNIT ≤ x → sign = 1 ∧ x' = x) ∧ UNIT ≤ x' ∧ InS x' ∧
      2 ^ logIntPart x' * UNIT ≤ x' ∧ x' < 2 ^ (logIntPart x' + 1) * UNIT ∧ logIntPart x' ≤ 195 ∧
      UNIT ≤ (logStart sign x').y ∧ (logStart sign x').y < TWICE_UNIT

/-- R145 (its invariant is marked [derived]): one iteration takes the bit exactly when the rescaled square reaches
TWICE_UNIT, keeps UNIT ≤ y < TWICE_UNIT, and leaves the sign. -/
def Obligations.LogIterationKeepsItsInvariant : Prop :=
  ∀ r : LogRegs, UNIT ≤ r.y → r.y < TWICE_UNIT →
    r.y * r.y < 4 * 10 ^ 36 ∧ UNIT ≤ (logIter r).y ∧ (logIter r).y < TWICE_UNIT ∧
    (logIter r).delta = r.delta / 2 ∧ (logIter r).sign = r.sign ∧
    (TWICE_UNIT * UNIT ≤ r.y * r.y → (logIter r).res = r.res + r.delta * r.sign ∧ (logIter r).y = r.y * r.y / UNIT / 2) ∧
    (r.y * r.y < TWICE_UNIT * UNIT → (logIter r).res = r.res ∧ (logIter r).y = r.y * r.y / UNIT)

/-- R146, the count: for any positive start the loop ends because delta is 0 and not because its fuel is used up: more fuel
changes nothing, and 59 iterations are exactly enough. -/
def Obligations.LogLoopRunsFiftyNineIterations : Prop :=
  asr HALF_UNIT 58 = 1 ∧ asr HALF_UNIT 59 = 0 ∧
  ∀ r : LogRegs, r.delta = HALF_UNIT →
    (∀ fuel, 59 ≤ fuel → logLoop fuel r = logIter^[59] r) ∧ (∀ k, k < 59 → 0 < (logIter^[k] r).delta) ∧
    (logIter^[59] r).delta = 0

/-- Corner cases of R141 that the spec marks [derived]: exact powers of two, and their reciprocals. -/
def Obligations.Log2IsExactOnPowersOfTwo : Prop :=
  (∀ k : Nat, 2 ^ k * UNIT ≤ MAX_59x18 → fLog2 (2 ^ k * UNIT) = .ok (k * UNIT)) ∧
  (∀ k : Nat, 1 ≤ k → k ≤ 18 → fLog2 (UNIT / 2 ^ k) = .ok (-(k * UNIT)))

/-- log2 is monotone non-decreasing over all its domain, across the reciprocal boundary too (R141, marked [derived]). -/
def Obligations.Log2IsMonotone : Prop :=
  ∀ x y u v : Int, InS x → InS y → x ≤ y → fLog2 x = .ok u → fLog2 y = .ok v → u ≤ v

/-- The range of log2 (R146, marked [derived]): for every valid x a result between the two extremes, which the smallest and
the largest input reach; and its sign (R141). -/
def Obligations.Log2RangeAndSign : Prop :=
  (∀ x : Int, 0 < x → InS x → ∃ v, fLog2 x = .ok v ∧ -59794705707972522245 ≤ v ∧ v ≤ 195205294292027477728 ∧
    (x < UNIT → v ≤ 0) ∧ (UNIT ≤ x → 0 ≤ v)) ∧
  fLog2 1 = .ok (-59794705707972522245) ∧ fLog2 MAX_59x18 = .ok 195205294292027477728

/-- R147: LOG_NONPOS for x ≤ 0; otherwise LN never fails and is MUL of the LOG2 result by LN2. -/
def Obligations.LnIsLog2TimesLn2 : Prop :=
  (∀ s : State, sval s.capA ≤ 0 → exec .ln s = .next (s.present { status := 1, cause := 1, result := 0 })) ∧
  (∀ s : State, 0 < sval s.capA →
    ∃ l w, exec .log2 s = .next (s.present { status := 0, cause := 0, result := l }) ∧
      exec .ln s = .next (s.present { status := 0, cause := 0, result := w }) ∧
      outcome .mul l (enc LN2) = .ok w) ∧
  encode .ln = 0x41

/-! Families 5 and 6. -/

/-- R161, R162, R163: the three constants, with the result words the rules write, from every state. -/
def Obligations.ConstantsAreTheirWords : Prop :=
  ∀ s : State,
    (∃ w, exec .unit s = .next (s.present { status := 0, cause := 0, result := w }) ∧
      sval w = 1000000000000000000 ∧ w = 0x0de0b6b3a7640000) ∧
    (∃ w, exec .e s = .next (s.present { status := 0, cause := 0, result := w }) ∧
      sval w = 2718281828459045235 ∧ w = 0x25b946ebc0b36173) ∧
    (∃ w, exec .pi s = .next (s.present { status := 0, cause := 0, result := w }) ∧
      sval w = 3141592653589793238 ∧ w = 0x2b992ddfa23249d6) ∧
    encode .unit = 0x50 ∧ encode .e = 0x51 ∧ encode .pi = 0x52

/-- R171 to R174: the signature-only commands always answer ILLEGAL / UNIMPLEMENTED with result 0, from every state and for
all operands. -/
def Obligations.SignatureOnlyCommandsAnswerUnimplemented : Prop :=
  ∀ (i : Instr) (s : State), i = .muldiv ∨ i = .sqrt ∨ i = .exp ∨ i = .exp2 →
    exec i s = .next (s.present { status := 3, cause := 10, result := 0 }) ∧
    0x60 ≤ (encode i).toNat ∧ (encode i).toNat ≤ 0x63

/-! Notation and host scripts. -/

/-- R72, with the variables of R73: a transaction that assembles puts its command's word on the port and a zero word for each
operand the command does not read; a single operand goes to A, and of two (DIV and MUL only) the first goes to A and the
second to B; the word of a decimal or a named constant is the one that reads as its value, a hexadecimal word is itself, and
a host variable is the result stored in it. The last two clauses rest on log entry 11 (DESIGN CHOICE; R72 is silent): the
assembler takes a decimal literal of any size, so that literals assemble exactly when there are as many as the command reads,
and `.op` takes any command value, not a reserved one only. -/
def Obligations.AssemblerZeroesUnusedOperands : Prop :=
  let names : NamedConst → Int → Prop := fun c v =>
    ∀ vars : HostVars, ∃ w, operandWord vars (.named c) = some w ∧ sval w = v
  (∀ (vars : HostVars) (i : Instr) (args : List Operand) (q : Request), assemble vars (.op i args) = some q →
    q.op = encode i ∧ (operandA i = .ignored → q.a = 0) ∧ (operandB i = .ignored → q.b = 0)) ∧
  (∀ (vars : HostVars) (i : Instr) (x : Operand) (q : Request), assemble vars (.op i [x]) = some q →
    operandA i ≠ .ignored ∧ operandB i = .ignored ∧ operandWord vars x = some q.a) ∧
  (∀ (vars : HostVars) (i : Instr) (x y : Operand) (q : Request), assemble vars (.op i [x, y]) = some q →
    (i = .div ∨ i = .mul) ∧ operandWord vars x = some q.a ∧ operandWord vars y = some q.b) ∧
  (∀ (vars : HostVars) (v : Int), InS v → ∃ w, operandWord vars (.dec v) = some w ∧ sval w = v) ∧
  (∀ (vars : HostVars) (v : Int), InU v → ∃ w, operandWord vars (.dec v) = some w ∧ (uval w : Int) = v) ∧
  (∀ (vars : HostVars) (n : Nat), n < 2 ^ 256 → ∃ w, operandWord vars (.hex n) = some w ∧ uval w = n) ∧
  (names .unit UNIT ∧ names .halfUnit HALF_UNIT ∧ names .twiceUnit TWICE_UNIT ∧ names .ln2 LN2 ∧
    names .max MAX_59x18 ∧ names .min MIN_59x18 ∧ names .maxWhole MAX_WHOLE_59x18 ∧ names .minWhole MIN_WHOLE_59x18) ∧
  (∀ (vars : HostVars) (n : Nat) (r : Response), vars.lookup n = some r →
    operandWord vars (.hostVar n) = some r.result) ∧
  (∀ (vars : HostVars) (i : Instr) (args : List Operand), (∀ x ∈ args, ∃ v, x = .dec v) →
    ((assemble vars (.op i args)).isSome ↔ args.length = arity i)) ∧
  ∀ (vars : HostVars) (w : Command), assemble vars (.raw w) = some { op := w, a := 0, b := 0 }

/-- R73: an unguarded line stores the Exec of its request in its variable, a line whose guard is not OK changes nothing, and
a guarded line whose guard is OK runs like an unguarded one. -/
def Obligations.ScriptLineStoresExecUnderItsGuard : Prop :=
  (∀ (vars : HostVars) (l : ScriptLine) (q : Request), l.guard = none → assemble vars l.body = some q →
    runLine vars l = some ((l.dest, execWord q.op q.a q.b) :: vars)) ∧
  (∀ (vars : HostVars) (l : ScriptLine) (k : Nat) (r : Response), l.guard = some k → vars.lookup k = some r →
    (r.status ≠ 0 → runLine vars l = some vars) ∧ (r.status = 0 → runLine vars l = runLine vars { l with guard := none }))
end

