-- ==== Sys2Proof/Laws/Numbers.lean ====
section
/-! SUPPORT. What the number primitives do: words and integers, checked arithmetic, responses. -/

namespace Sys2Proof.Machine

theorem inS_sval (w : Word) : InS (sval w) := by
  have h₁ := BitVec.le_toInt w
  have h₂ := BitVec.toInt_lt (x := w)
  simp only [InS, MIN_59x18, MAX_59x18, sval]
  norm_num at h₁ h₂ ⊢
  omega

theorem sval_enc {v : Int} (h : InS v) : sval (enc v) = v := by
  simp only [InS, MIN_59x18, MAX_59x18] at h
  simp only [sval, enc, BitVec.toInt_ofInt]
  norm_num at h
  rw [Int.bmod_def]
  norm_num
  omega

theorem uval_lt (w : Word) : uval w < 2 ^ 256 := w.isLt

theorem uval_zext256 {n : Nat} (h : n < 2 ^ 256) : uval (zext256 n) = n := by
  simp only [uval, zext256, BitVec.toNat_ofNat]
  exact Nat.mod_eq_of_lt h

theorem chk_of_inS {v : Int} (c : Cause) (h : InS v) : chk v c = .ok v := if_pos h

theorem chk_of_not_inS {v : Int} (c : Cause) (h : ¬ InS v) : chk v c = .error c := if_neg h

/-- Everything `chk` can do. -/
theorem chk_cases (v : Int) (c : Cause) : (InS v ∧ chk v c = .ok v) ∨ (¬ InS v ∧ chk v c = .error c) := by
  by_cases h : InS v
  · exact .inl ⟨h, chk_of_inS c h⟩
  · exact .inr ⟨h, chk_of_not_inS c h⟩

@[simp] theorem respond_ok (w : Word) : respond (.ok w) = { status := 0, cause := 0, result := w } := rfl

@[simp] theorem respond_error (c : Cause) :
    respond (.error c) = { status := c.status.code, cause := c.code, result := 0 } := rfl

end Sys2Proof.Machine
end

