-- ==== Sys2Proof/Laws/Arith.lean ====
section
/-! SUPPORT. Each operation on integers as one plain equation, and how operand words reach it: what a proof about a command
cites instead of unfolding it. -/

namespace Sys2Proof.Machine

theorem onSigned_of_ok {f : Int → OpResult Int} {a : Word} {v : Int} (h : f (sval a) = .ok v) :
    onSigned f a = .ok (enc v) := by
  simp [onSigned, h, Except.map]

theorem onSigned_of_error {f : Int → OpResult Int} {a : Word} {c : Cause} (h : f (sval a) = .error c) :
    onSigned f a = .error c := by
  simp [onSigned, h, Except.map]

theorem onSigned2_of_ok {f : Int → Int → OpResult Int} {a b : Word} {v : Int} (h : f (sval a) (sval b) = .ok v) :
    onSigned2 f a b = .ok (enc v) := by
  simp [onSigned2, h, Except.map]

theorem onSigned2_of_error {f : Int → Int → OpResult Int} {a b : Word} {c : Cause}
    (h : f (sval a) (sval b) = .error c) : onSigned2 f a b = .error c := by
  simp [onSigned2, h, Except.map]

/-- DIV in one equation: the range check first, then the check of y (R101, R185). -/
theorem fDiv_eq (x y : Int) :
    fDiv x y = if InS (x * UNIT) then (if y = 0 then .error .divByZero else .ok (tdiv (x * UNIT) y))
      else .error .divOverflow := by
  rcases chk_cases (x * UNIT) .divOverflow with ⟨h, hc⟩ | ⟨h, hc⟩ <;>
    rw [fDiv, hc] <;> simp [h, bind, Except.bind]

/-- What MUL divides by UNIT: the product pushed away from zero on the sign of x (R102). -/
theorem fMul_eq (x y : Int) :
    fMul x y =
      if InS (x * y) then
        (if InS (if x > 0 then x * y + HALF_UNIT else x * y - HALF_UNIT) then
          .ok (tdiv (if x > 0 then x * y + HALF_UNIT else x * y - HALF_UNIT) UNIT)
        else .error .mulRoundOverflow)
      else .error .mulOverflow := by
  rcases chk_cases (x * y) .mulOverflow with ⟨h, hc⟩ | ⟨h, hc⟩
  · rcases chk_cases (if x > 0 then x * y + HALF_UNIT else x * y - HALF_UNIT) .mulRoundOverflow with ⟨h', hc'⟩ | ⟨h', hc'⟩
    · rw [fMul, hc, if_pos h, if_pos h']
      simp only [bind, Except.bind, hc']
    · rw [fMul, hc, if_pos h, if_neg h']
      simp only [bind, Except.bind, hc']
  · rw [fMul, hc, if_neg h]
    rfl

/-- LN in one equation (R147). -/
theorem fLn_eq (x : Int) : fLn x = (fLog2 x).bind fun l => fMul l LN2 := rfl

theorem fLog2_of_nonpos {x : Int} (h : x ≤ 0) : fLog2 x = .error .logNonpos := by
  simp [fLog2, h]

end Sys2Proof.Machine
end

