-- ==== Sys2Proof/Laws/State.lean ====
section
/-! SUPPORT. One lemma per field per update of the state, so that no proof unfolds a record update. -/

namespace Sys2Proof.Machine

/-! The ports move on; no register changes. -/

@[simp] theorem State.tick_phase (s : State) : (s.tick).phase = s.phase := rfl
@[simp] theorem State.tick_capOp (s : State) : (s.tick).capOp = s.capOp := rfl
@[simp] theorem State.tick_capA (s : State) : (s.tick).capA = s.capA := rfl
@[simp] theorem State.tick_capB (s : State) : (s.tick).capB = s.capB := rfl
@[simp] theorem State.tick_rspStatus (s : State) : (s.tick).rspStatus = s.rspStatus := rfl
@[simp] theorem State.tick_rspCause (s : State) : (s.tick).rspCause = s.rspCause := rfl
@[simp] theorem State.tick_rspResult (s : State) : (s.tick).rspResult = s.rspResult := rfl
@[simp] theorem State.tick_latLeft (s : State) : (s.tick).latLeft = s.latLeft := rfl
@[simp] theorem State.tick_inputs (s : State) : (s.tick).inputs = s.inputs.tail := rfl
@[simp] theorem State.tick_edges (s : State) : (s.tick).edges = s.edges + 1 := rfl
@[simp] theorem State.tick_rspRegs (s : State) : (s.tick).rspRegs = s.rspRegs := rfl

/-! Reset (R36, R212). -/

@[simp] theorem State.resetEdge_phase (s : State) : (s.resetEdge).phase = Phase.idle := rfl
@[simp] theorem State.resetEdge_capOp (s : State) : (s.resetEdge).capOp = Config.capOpAfterReset s.edges := rfl
@[simp] theorem State.resetEdge_capA (s : State) : (s.resetEdge).capA = Config.capAAfterReset s.edges := rfl
@[simp] theorem State.resetEdge_capB (s : State) : (s.resetEdge).capB = Config.capBAfterReset s.edges := rfl
@[simp] theorem State.resetEdge_rspStatus (s : State) : (s.resetEdge).rspStatus = 0 := rfl
@[simp] theorem State.resetEdge_rspCause (s : State) : (s.resetEdge).rspCause = 0 := rfl
@[simp] theorem State.resetEdge_rspResult (s : State) : (s.resetEdge).rspResult = 0 := rfl
@[simp] theorem State.resetEdge_latLeft (s : State) : (s.resetEdge).latLeft = 0 := rfl
@[simp] theorem State.resetEdge_inputs (s : State) : (s.resetEdge).inputs = s.inputs.tail := rfl
@[simp] theorem State.resetEdge_edges (s : State) : (s.resetEdge).edges = s.edges + 1 := rfl

/-! Acceptance (R29, R216). -/

@[simp] theorem State.acceptEdge_phase (s : State) : (s.acceptEdge).phase = Phase.busy := rfl
@[simp] theorem State.acceptEdge_capOp (s : State) : (s.acceptEdge).capOp = s.pins.reqOp := rfl
@[simp] theorem State.acceptEdge_capA (s : State) : (s.acceptEdge).capA = s.pins.reqA := rfl
@[simp] theorem State.acceptEdge_capB (s : State) : (s.acceptEdge).capB = s.pins.reqB := rfl
@[simp] theorem State.acceptEdge_rspStatus (s : State) : (s.acceptEdge).rspStatus = s.rspStatus := rfl
@[simp] theorem State.acceptEdge_rspCause (s : State) : (s.acceptEdge).rspCause = s.rspCause := rfl
@[simp] theorem State.acceptEdge_rspResult (s : State) : (s.acceptEdge).rspResult = s.rspResult := rfl
@[simp] theorem State.acceptEdge_latLeft (s : State) : (s.acceptEdge).latLeft = Config.lat s.pins.reqOp s.pins.reqA s.pins.reqB := rfl
@[simp] theorem State.acceptEdge_inputs (s : State) : (s.acceptEdge).inputs = s.inputs.tail := rfl
@[simp] theorem State.acceptEdge_edges (s : State) : (s.acceptEdge).edges = s.edges + 1 := rfl
@[simp] theorem State.acceptEdge_rspRegs (s : State) : (s.acceptEdge).rspRegs = s.rspRegs := rfl

/-! A BUSY edge before the last (R219). -/

@[simp] theorem State.waitEdge_phase (s : State) : (s.waitEdge).phase = s.phase := rfl
@[simp] theorem State.waitEdge_capOp (s : State) : (s.waitEdge).capOp = s.capOp := rfl
@[simp] theorem State.waitEdge_capA (s : State) : (s.waitEdge).capA = s.capA := rfl
@[simp] theorem State.waitEdge_capB (s : State) : (s.waitEdge).capB = s.capB := rfl
@[simp] theorem State.waitEdge_rspStatus (s : State) : (s.waitEdge).rspStatus = s.rspStatus := rfl
@[simp] theorem State.waitEdge_rspCause (s : State) : (s.waitEdge).rspCause = s.rspCause := rfl
@[simp] theorem State.waitEdge_rspResult (s : State) : (s.waitEdge).rspResult = s.rspResult := rfl
@[simp] theorem State.waitEdge_latLeft (s : State) : (s.waitEdge).latLeft = s.latLeft - 1 := rfl
@[simp] theorem State.waitEdge_inputs (s : State) : (s.waitEdge).inputs = s.inputs.tail := rfl
@[simp] theorem State.waitEdge_edges (s : State) : (s.waitEdge).edges = s.edges + 1 := rfl
@[simp] theorem State.waitEdge_rspRegs (s : State) : (s.waitEdge).rspRegs = s.rspRegs := rfl

/-! Delivery (R218). -/

@[simp] theorem State.deliverEdge_phase (s : State) : (s.deliverEdge).phase = Phase.idle := rfl
@[simp] theorem State.deliverEdge_capOp (s : State) : (s.deliverEdge).capOp = s.capOp := rfl
@[simp] theorem State.deliverEdge_capA (s : State) : (s.deliverEdge).capA = s.capA := rfl
@[simp] theorem State.deliverEdge_capB (s : State) : (s.deliverEdge).capB = s.capB := rfl
@[simp] theorem State.deliverEdge_rspStatus (s : State) : (s.deliverEdge).rspStatus = s.rspStatus := rfl
@[simp] theorem State.deliverEdge_rspCause (s : State) : (s.deliverEdge).rspCause = s.rspCause := rfl
@[simp] theorem State.deliverEdge_rspResult (s : State) : (s.deliverEdge).rspResult = s.rspResult := rfl
@[simp] theorem State.deliverEdge_latLeft (s : State) : (s.deliverEdge).latLeft = s.latLeft := rfl
@[simp] theorem State.deliverEdge_inputs (s : State) : (s.deliverEdge).inputs = s.inputs.tail := rfl
@[simp] theorem State.deliverEdge_edges (s : State) : (s.deliverEdge).edges = s.edges + 1 := rfl
@[simp] theorem State.deliverEdge_rspRegs (s : State) : (s.deliverEdge).rspRegs = s.rspRegs := rfl

/-! The BUSY-to-DONE edge (R30). -/

@[simp] theorem State.present_phase (s : State) (r : Response) : (s.present r).phase = Phase.done := rfl
@[simp] theorem State.present_capOp (s : State) (r : Response) : (s.present r).capOp = s.capOp := rfl
@[simp] theorem State.present_capA (s : State) (r : Response) : (s.present r).capA = s.capA := rfl
@[simp] theorem State.present_capB (s : State) (r : Response) : (s.present r).capB = s.capB := rfl
@[simp] theorem State.present_rspStatus (s : State) (r : Response) : (s.present r).rspStatus = r.status := rfl
@[simp] theorem State.present_rspCause (s : State) (r : Response) : (s.present r).rspCause = r.cause := rfl
@[simp] theorem State.present_rspResult (s : State) (r : Response) : (s.present r).rspResult = r.result := rfl
@[simp] theorem State.present_latLeft (s : State) (r : Response) : (s.present r).latLeft = 0 := rfl
@[simp] theorem State.present_inputs (s : State) (r : Response) : (s.present r).inputs = s.inputs := rfl
@[simp] theorem State.present_edges (s : State) (r : Response) : (s.present r).edges = s.edges := rfl
@[simp] theorem State.present_rspRegs (s : State) (r : Response) : (s.present r).rspRegs = r := rfl

end Sys2Proof.Machine
end

