-- ==== Sys2Proof/Laws/Exec.lean ====
section
/-! SUPPORT. What a step can do, said once: `exec` computes the pure outcome of its command, and a step is one of five kinds
of edge. Later proofs cite these lemmas and unfold neither `exec` nor `step`. -/

namespace Sys2Proof.Machine

/-- Every command ends by writing the response to its outcome on the captured operands. -/
theorem exec_eq_present (i : Instr) (s : State) :
    exec i s = .next (s.present (respond (outcome i s.capA s.capB))) := by
  cases i <;> rfl

theorem execWord_of_decode {op : Command} {i : Instr} (h : decode op = .ok i) (a b : Word) :
    execWord op a b = respond (outcome i a b) := by
  simp only [execWord, h]

theorem execWord_of_reserved {op : Command} {e : DecodeError} (h : decode op = .error e) (a b : Word) :
    execWord op a b = respond (.error .reservedOp) := by
  simp only [execWord, h]

/-- The BUSY-to-DONE edge writes Exec of the captured request, whatever the command word is. -/
theorem runCaptured_eq_present (s : State) :
    runCaptured s = .next (s.tick.present (execWord s.capOp s.capA s.capB)) := by
  unfold runCaptured execWord
  cases h : decode s.capOp with
  | ok i => exact exec_eq_present i s.tick
  | error e => rfl

theorem step_of_rst {s : State} (h : s.pins.rst = true) : step s = .next s.resetEdge := by
  simp [step, h]

theorem step_of_idle {s : State} (h : s.pins.rst = false) (hp : s.phase = .idle) : step s = .next s.idleEdge := by
  simp [step, h, hp]

theorem step_of_wait {s : State} (h : s.pins.rst = false) (hp : s.phase = .busy) (hl : 1 < s.latLeft) :
    step s = .next s.waitEdge := by
  have : ¬ s.latLeft ≤ 1 := by omega
  simp [step, h, hp, this]

theorem step_of_complete {s : State} (h : s.pins.rst = false) (hp : s.phase = .busy) (hl : s.latLeft ≤ 1) :
    step s = .next (s.tick.present (execWord s.capOp s.capA s.capB)) := by
  simp [step, h, hp, hl, runCaptured_eq_present]

theorem step_of_done {s : State} (h : s.pins.rst = false) (hp : s.phase = .done) : step s = .next s.doneEdge := by
  simp [step, h, hp]

/-- Everything a step can do. -/
theorem step_cases {s t : State} (h : step s = .next t) :
    (s.pins.rst = true ∧ t = s.resetEdge) ∨
    (s.pins.rst = false ∧ s.phase = .idle ∧ s.pins.reqValid = true ∧ t = s.acceptEdge) ∨
    (s.pins.rst = false ∧ s.phase = .idle ∧ s.pins.reqValid = false ∧ t = s.tick) ∨
    (s.pins.rst = false ∧ s.phase = .busy ∧ 1 < s.latLeft ∧ t = s.waitEdge) ∨
    (s.pins.rst = false ∧ s.phase = .busy ∧ s.latLeft ≤ 1 ∧ t = s.tick.present (execWord s.capOp s.capA s.capB)) ∨
    (s.pins.rst = false ∧ s.phase = .done ∧ s.pins.rspReady = true ∧ t = s.deliverEdge) ∨
    (s.pins.rst = false ∧ s.phase = .done ∧ s.pins.rspReady = false ∧ t = s.tick) := by
  rcases hr : s.pins.rst with _ | _
  · rcases hp : s.phase with _ | _ | _
    · rw [step_of_idle hr hp] at h
      injection h with h
      subst h
      rcases hv : s.pins.reqValid with _ | _ <;> simp [State.idleEdge, hv]
    · rcases Nat.lt_or_ge 1 s.latLeft with hl | hl
      · rw [step_of_wait hr hp hl] at h
        injection h with h
        simp [h, hl]
      · rw [step_of_complete hr hp hl] at h
        injection h with h
        simp [h, hl]
    · rw [step_of_done hr hp] at h
      injection h with h
      subst h
      rcases hv : s.pins.rspReady with _ | _ <;> simp [State.doneEdge, hv]
  · rw [step_of_rst hr] at h
    injection h with h
    simp [h]

end Sys2Proof.Machine
end

