-- ==== Sys2Proof/Laws/PerInstr.lean ====
section
/-! SUPPORT. The per-instruction family `Assigned`: a command is well formed, its word is an assigned one, and the word's
family field names a family that holds its function (R61, R63). -/

namespace Sys2Proof.Laws.Assigned

/-- What the family says of one command. -/
def Statement (i : Instr) : Prop :=
  i.wellFormed = true ∧ Command.assigned (encode i) = true ∧
    (commandFn (encode i)).toNat < familySize (commandFam (encode i)).toNat

theorem abs : Statement Instr.abs := by unfold Statement; decide

theorem floor : Statement Instr.floor := by unfold Statement; decide

theorem ceil : Statement Instr.ceil := by unfold Statement; decide

theorem frac : Statement Instr.frac := by unfold Statement; decide

theorem div : Statement Instr.div := by unfold Statement; decide

theorem mul : Statement Instr.mul := by unfold Statement; decide

theorem msb : Statement Instr.msb := by unfold Statement; decide

theorem ispow2 : Statement Instr.ispow2 := by unfold Statement; decide

theorem nextpow2 : Statement Instr.nextpow2 := by unfold Statement; decide

theorem log2 : Statement Instr.log2 := by unfold Statement; decide

theorem ln : Statement Instr.ln := by unfold Statement; decide

theorem unit : Statement Instr.unit := by unfold Statement; decide

theorem e : Statement Instr.e := by unfold Statement; decide

theorem pi : Statement Instr.pi := by unfold Statement; decide

theorem muldiv : Statement Instr.muldiv := by unfold Statement; decide

theorem sqrt : Statement Instr.sqrt := by unfold Statement; decide

theorem exp : Statement Instr.exp := by unfold Statement; decide

theorem exp2 : Statement Instr.exp2 := by unfold Statement; decide

end Sys2Proof.Laws.Assigned
end

