-- ==== Sys2Proof/Tests/Slice0.lean ====
section
/-! SUPPORT. Tests of the model, with expected values from spec/ (95_test_vectors.md, named by vector or section), and a
witness for the hypotheses of each statement that has some: a concrete state and operands that meet them together, at
boundary values where a statement has several clauses. -/

namespace Sys2Proof.Tests

open Sys2Proof.Machine

/-! States used below. -/

/-- BUSY with the operands A and B captured and the BUSY-to-DONE edge next, at which nothing is on the ports. -/
def busyOn (op : Command) (a b : Word) : State :=
  { State.reset with phase := .busy, capOp := op, capA := a, capB := b, latLeft := 1, inputs := [quietPins] }

/-- `busyOn` for a signed operand A and B. -/
def signedOn (a b : Int) : State := busyOn 0 (enc a) (enc b)

/-- `busyOn` for an unsigned operand A. -/
def unsignedOn (a : Nat) : State := busyOn 0 (BitVec.ofNat 256 a) 0

/-- BUSY with two edges left until the BUSY-to-DONE edge. -/
def busyWaiting : State := { busyOn 0x30 255 0 with latLeft := 2 }

/-- A request for MSB of 255. -/
def msbRequest : Request := { op := 0x30, a := 255, b := 0 }

/-- IDLE with the ports that carry one request. -/
def idleWithRequest : State := { State.reset with inputs := transactionPins msbRequest }

/-- DONE with the response 7 and the ports given. -/
def doneWith (ps : List PortIn) : State :=
  { State.reset with phase := .done, capOp := 0x30, capA := 255, rspResult := 7, inputs := ps }

/-- What a command answers on a state: its response registers. -/
def answer (i : Instr) (s : State) : Option Response :=
  match exec i s with
  | .next t => some t.rspRegs
  | .fault _ => none
  | .refused _ => none

/-- A response with status OK. -/
def okInt (v : Int) : Option Response := some { status := 0, cause := 0, result := enc v }

/-- A response with the status and cause given and result 0. -/
def err (status : BitVec 2) (cause : BitVec 4) : Option Response := some { status := status, cause := cause, result := 0 }

/-! Well-formedness: the check on words refuses the reserved ones; the one on transactions refuses each of its faults. -/

theorem test_wf_word_family_zero : Command.assigned 0x00 = false := by decide

theorem test_wf_word_function_past_family : Command.assigned 0x14 = false ∧ Command.assigned 0x64 = false := by decide

theorem test_wf_word_assigned : Command.assigned 0x13 = true ∧ Command.assigned 0x63 = true := by decide

theorem test_wf_instr : allInstrs.all Instr.wellFormed = true := by decide

theorem test_wf_transaction_operand_count : transactionWellFormed (.op .div [.dec 1]) = false := by decide

theorem test_wf_transaction_operand_range :
    transactionWellFormed (.op .abs [.dec (2 ^ 255)]) = false ∧ transactionWellFormed (.op .msb [.dec (-1)]) = false := by
  decide

theorem test_wf_transaction_hex_width : transactionWellFormed (.op .msb [.hex (2 ^ 256)]) = false := by decide

theorem test_wf_transaction_raw_assigned : transactionWellFormed (.raw 0x10) = false := by decide

/-! Decoding, the words bit by bit from the FAM and FN columns of rule R63. -/

theorem test_decode_family1 :
    decode 0b00010000#8 = .ok .abs ∧ decode 0b00010001#8 = .ok .floor ∧ decode 0b00010010#8 = .ok .ceil ∧
      decode 0b00010011#8 = .ok .frac := by decide

theorem test_decode_family2 : decode 0b00100000#8 = .ok .div ∧ decode 0b00100001#8 = .ok .mul := by decide

theorem test_decode_family3 :
    decode 0b00110000#8 = .ok .msb ∧ decode 0b00110001#8 = .ok .ispow2 ∧ decode 0b00110010#8 = .ok .nextpow2 := by decide

theorem test_decode_family4 : decode 0b01000000#8 = .ok .log2 ∧ decode 0b01000001#8 = .ok .ln := by decide

theorem test_decode_family5 :
    decode 0b01010000#8 = .ok .unit ∧ decode 0b01010001#8 = .ok .e ∧ decode 0b01010010#8 = .ok .pi := by decide

theorem test_decode_family6 :
    decode 0b01100000#8 = .ok .muldiv ∧ decode 0b01100001#8 = .ok .sqrt ∧ decode 0b01100010#8 = .ok .exp ∧
      decode 0b01100011#8 = .ok .exp2 := by decide

theorem test_decode_reserved :
    decode 0b00010100#8 = .error (.reservedOp 0x14) ∧ decode 0b11111111#8 = .error (.reservedOp 0xFF) := by decide

theorem test_decode_table_word : decodeTableWord 8 0x41 = some .ln ∧ decodeTableWord 8 0x42 = none := by decide

theorem test_step_runs_fetch_word :
    step (State.reset.withFetchWord 8 0x50) = exec .unit (State.reset.withFetchWord 8 0x50).tick := by rfl

/-! One command at a time; the vectors of 95_test_vectors.md. -/

/-- Table 2.1, rows `-2500000000000000000` and `MIN_59x18`. -/
theorem test_abs : answer .abs (signedOn (-2500000000000000000) 0) = okInt 2500000000000000000 ∧
    answer .abs (signedOn MIN_59x18 0) = err 2 4 := by decide

/-- S3, and table 2.1 row `MIN_WHOLE_59x18 - 1`. -/
theorem test_floor : answer .floor (signedOn (-2500000000000000000) 0) = okInt (-3000000000000000000) ∧
    answer .floor (signedOn (MIN_WHOLE_59x18 - 1) 0) = err 2 5 := by decide

/-- S2, and table 2.1 rows `-1` and `MAX_WHOLE_59x18 + 1`. -/
theorem test_ceil : answer .ceil (signedOn 2500000000000000000 0) = okInt 3000000000000000000 ∧
    answer .ceil (signedOn (-1) 0) = okInt 0 ∧ answer .ceil (signedOn (MAX_WHOLE_59x18 + 1) 0) = err 2 6 := by decide

/-- Table 2.1, rows `-2500000000000000000` and `MIN_59x18`. -/
theorem test_frac : answer .frac (signedOn (-2500000000000000000) 0) = okInt (-500000000000000000) ∧
    answer .frac (signedOn MIN_59x18 0) = okInt (-792003956564819968) := by decide

/-- DV3, DV8. -/
theorem test_div_truncates : answer .div (signedOn (-UNIT) 3000000000000000000) = okInt (-333333333333333333) ∧
    answer .div (signedOn 3 (-2000000000000000000)) = okInt (-1) := by decide

/-- DV16 and DV17: the order of the two checks. -/
theorem test_div_errors :
    answer .div (signedOn 57896044618658097711785492504343953926634992332820282019728 0) = err 1 3 ∧
    answer .div (signedOn 57896044618658097711785492504343953926634992332820282019729 0) = err 2 7 := by decide

/-- MV4, MV5, MV12. -/
theorem test_mul_rounds_on_x : answer .mul (signedOn UNIT (-1)) = okInt 0 ∧ answer .mul (signedOn (-1) UNIT) = okInt (-1) ∧
    answer .mul (signedOn (-UNIT) (-3000000000000000000)) = okInt 2999999999999999999 := by decide

/-- MV27, MV28. -/
theorem test_mul_errors : answer .mul (signedOn MIN_59x18 1) = err 2 9 ∧ answer .mul (signedOn MIN_59x18 (-1)) = err 2 8 := by
  decide

/-- S6 and table 2.4 rows `0` and `2^256 - 1`. -/
theorem test_msb : answer .msb (unsignedOn 255) = okInt 7 ∧ answer .msb (unsignedOn 0) = okInt 0 ∧
    answer .msb (unsignedOn (2 ^ 256 - 1)) = okInt 255 := by decide

/-- Table 2.4, rows `0`, `2^255` and `2^256 - 1`. -/
theorem test_ispow2 : answer .ispow2 (unsignedOn 0) = err 1 2 ∧ answer .ispow2 (unsignedOn (2 ^ 255)) = okInt 1 ∧
    answer .ispow2 (unsignedOn (2 ^ 256 - 1)) = okInt 0 := by decide

/-- Table 2.4, rows `0`, `256`, `2^255 + 1`. -/
theorem test_nextpow2 : answer .nextpow2 (unsignedOn 0) = err 1 2 ∧ answer .nextpow2 (unsignedOn 256) = okInt 256 ∧
    answer .nextpow2 (unsignedOn (2 ^ 255 + 1)) = okInt 0 := by decide

/-- Section 3, the whole trace of log2(3·UNIT). -/
theorem test_log2_three : answer .log2 (signedOn 3000000000000000000 0) = okInt 1584962500721156166 := by rfl

/-- Table 2.5, rows `1` and `0`. -/
theorem test_log2_reciprocal : answer .log2 (signedOn 1 0) = okInt (-59794705707972522245) ∧
    answer .log2 (signedOn 0 0) = err 1 1 := by
  constructor <;> rfl

/-- Table 2.5, row `E_RAW`. -/
theorem test_ln_e : answer .ln (signedOn E_RAW 0) = okInt 999999999999999990 := by rfl

/-- Table 2.5, rows `HALF_UNIT` and `-1`. -/
theorem test_ln_half : answer .ln (signedOn HALF_UNIT 0) = okInt (-693147180559945309) ∧
    answer .ln (signedOn (-1) 0) = err 1 1 := by
  constructor <;> rfl

/-- Table 2.6. -/
theorem test_constants : answer .unit (signedOn 5 7) = some ⟨0, 0, 0x0de0b6b3a7640000⟩ ∧
    answer .e (signedOn 5 7) = some ⟨0, 0, 0x25b946ebc0b36173⟩ ∧
    answer .pi (signedOn 5 7) = some ⟨0, 0, 0x2b992ddfa23249d6⟩ := by decide

/-- Table 2.7, rows `0x60` to `0x63`. -/
theorem test_placeholders : answer .muldiv (signedOn 5 7) = err 3 10 ∧ answer .sqrt (signedOn 5 7) = err 3 10 ∧
    answer .exp (signedOn 5 7) = err 3 10 ∧ answer .exp2 (signedOn 5 7) = err 3 10 := by decide

/-- Table 2.7, row `0x14`: a reserved value through the step. -/
theorem test_reserved_step : step (busyOn 0x14 5 7) =
    .next { busyOn 0x14 5 7 with phase := .done, rspStatus := 3, rspCause := 11, latLeft := 0, inputs := [], edges := 1 } := by
  rfl

/-- Rule R9 and rule R8, the decimal digits. -/
theorem test_bounds_decimal :
    MAX_59x18 = 57896044618658097711785492504343953926634992332820282019728792003956564819967 ∧
    MIN_59x18 = -57896044618658097711785492504343953926634992332820282019728792003956564819968 := by decide

/-- The helper vectors after table 2.4. -/
theorem test_helpers : spread 999 = 1023 ∧ spread (2 ^ 255) = 2 ^ 256 - 1 ∧ align MAX_59x18 195 = 2 ^ 60 - 1 ∧
    align 1000000000000000000000000000000000000 59 = 1734723475976807094 := by decide

/-- Section 3, row k = 3 from row k = 2: one iteration that takes its bit. -/
theorem test_log_iteration :
    logIter { y := 1601806640625000000, res := 1500000000000000000, delta := 62500000000000000, sign := 1 } =
      { y := 1282892256975173950, res := 1562500000000000000, delta := 31250000000000000, sign := 1 } := by decide

/-! The notation of R72 to R74. -/

/-- Program 4, its last line, without the comment. -/
theorem test_read_guarded_line :
    readLine "if t4.status == OK: t5 <- div t4, 1_000000000000000000".toList =
      some { guard := some 4, dest := 5, body := .op .div [.hostVar 4, .dec 1000000000000000000] } := by decide

/-- Program 5, its first line, and program 2, its first line. -/
theorem test_read_plain_lines :
    readLine "t1 <- .op 0x00".toList = some { guard := none, dest := 1, body := .raw 0 } ∧
    readLine "t1 <- floor -2_500000000000000000".toList =
      some { guard := none, dest := 1, body := .op .floor [.dec (-2500000000000000000)] } := by decide

/-- S6, its listing. -/
theorem test_listing : requestListing msbRequest =
    "op=0x30 a=".toList ++ List.replicate 62 '0' ++ "ff b=".toList ++ List.replicate 64 '0' := by rfl

/-- Program 3, lines 4 and 5: the wrap is OK, so the guarded line runs and fails. -/
theorem test_script_guard :
    runScript [] [⟨none, 4, .op .nextpow2 [.hex (2 ^ 255 + 1)]⟩, ⟨some 4, 5, .op .ispow2 [.hostVar 4]⟩] =
      some [(5, ⟨1, 2, 0⟩), (4, ⟨0, 0, 0⟩)] := by decide

/-! Witnesses: the hypotheses of each statement are met. -/

theorem witness_CommandTableIsDecodedRowByRow :
    (0x14 : Command) ∉ ([0x10, 0x11, 0x12, 0x13, 0x20, 0x21, 0x30, 0x31, 0x32, 0x40, 0x41, 0x50, 0x51, 0x52, 0x60, 0x61,
      0x62, 0x63] : List Command) := by decide

theorem witness_DecodeAndEncodeAgree : decode 0x63 = .ok .exp2 ∧ Command.assigned 0x64 = false := by decide

theorem witness_ExecOfEveryCommandValue : resultKind .pi ≠ .none ∧ (0x60 : Command).toNat = 0x60 ∧
    (0x63 : Command).toNat = 0x63 ∧ (0x0F : Command).toNat ≤ 0x0F ∧ 0x64 ≤ (0x64 : Command).toNat ∧
    (0x14 ≤ (0x14 : Command).toNat ∧ (0x14 : Command).toNat ≤ 0x1F) := by decide

theorem witness_StepRunsTheDecodedCommand : (busyOn 0x30 255 0).pins.rst = false ∧ (busyOn 0x30 255 0).phase = .busy ∧
    (busyOn 0x30 255 0).latLeft ≤ 1 ∧ decode (busyOn 0x30 255 0).capOp = .ok .msb := by decide

theorem witness_StepAnswersReservedCommands : (busyOn 0x42 0 0).pins.rst = false ∧ (busyOn 0x42 0 0).phase = .busy ∧
    (busyOn 0x42 0 0).latLeft ≤ 1 ∧ Command.assigned (busyOn 0x42 0 0).capOp = false := by decide

theorem witness_ResetEdgeFromAnyState :
    (doneWith [{ quietPins with rst := true }, quietPins]).pins.rst = true ∧
    (doneWith [{ quietPins with rst := true }, quietPins]).resetEdge.pins.rst = false := by decide

theorem witness_RequestsAreTakenOnlyWhenReady :
    (idleWithRequest.pins.rst = false ∧ idleWithRequest.pins.reqValid = true ∧ idleWithRequest.reqReady = true) ∧
    (doneWith [quietPins]).inputs = quietPins :: [] ∧ (doneWith [quietPins]).reqReady = false := by
  refine ⟨⟨rfl, rfl, rfl⟩, rfl, rfl⟩

theorem witness_PhaseChangesOnlyAtItsEdges :
    (step idleWithRequest = .next idleWithRequest.acceptEdge ∧ idleWithRequest.accepts = true) ∧
    (step (busyOn 0x30 255 0) = .next ((busyOn 0x30 255 0).tick.present ⟨0, 0, 7⟩) ∧
      (busyOn 0x30 255 0).completes = true) ∧
    (step busyWaiting = .next busyWaiting.waitEdge ∧ busyWaiting.accepts = false ∧ busyWaiting.completes = false ∧
      busyWaiting.delivers = false ∧ busyWaiting.pins.rst = false ∧ busyWaiting.phase = .busy ∧
      busyWaiting.waitEdge.latLeft = 1) ∧
    (step (doneWith [{ quietPins with rst := true }]) = .next (doneWith [{ quietPins with rst := true }]).resetEdge ∧
      (doneWith [{ quietPins with rst := true }]).pins.rst = true) ∧
    (step (doneWith [awaitPins]) = .next (doneWith [awaitPins]).deliverEdge ∧ (doneWith [awaitPins]).delivers = true) ∧
    (step (doneWith [quietPins]) = .next (doneWith [quietPins]).tick ∧ (doneWith [quietPins]).accepts = false ∧
      (doneWith [quietPins]).completes = false ∧ (doneWith [quietPins]).delivers = false ∧
      (doneWith [quietPins]).pins.rst = false) := by
  refine ⟨⟨rfl, rfl⟩, ⟨rfl, rfl⟩, ⟨rfl, rfl, rfl, rfl, rfl, rfl, rfl⟩, ⟨rfl, rfl⟩, ⟨rfl, rfl⟩, rfl, rfl, rfl, rfl, rfl⟩

theorem witness_CaptureRegistersFeedTheCommand :
    exec .msb (busyOn 0x30 255 0) = .next ((busyOn 0x30 255 0).present ⟨0, 0, 7⟩) ∧
    exec .msb { busyOn 0x30 255 0 with inputs := [awaitPins], edges := 3 } =
      .next (State.present { busyOn 0x30 255 0 with inputs := [awaitPins], edges := 3 } ⟨0, 0, 7⟩) := by
  constructor <;> rfl

theorem witness_ResponseRegistersHoldExec :
    step (busyOn 0x30 255 0) = .next ((busyOn 0x30 255 0).tick.present ⟨0, 0, 7⟩) ∧ (busyOn 0x30 255 0).completes = true ∧
    step (doneWith [quietPins, quietPins]) = .next (doneWith [quietPins, quietPins]).tick ∧
    (doneWith [quietPins, quietPins]).completes = false ∧ (doneWith [quietPins, quietPins]).pins.rst = false ∧
    (doneWith [quietPins, quietPins]).tick.phase = .done ∧ (doneWith [quietPins, quietPins]).tick.pins.rst = false := by
  refine ⟨rfl, rfl, rfl, rfl, rfl, rfl, rfl⟩

theorem witness_ResponseIsHeldUntilTaken :
    ((doneWith [quietPins, quietPins, awaitPins]).phase = .done ∧
      ∀ j, j < 2 → ((doneWith [quietPins, quietPins, awaitPins]).pinsAfter j).rst = false ∧
        ((doneWith [quietPins, quietPins, awaitPins]).pinsAfter j).rspReady = false) ∧
    ((doneWith [awaitPins]).phase = .done ∧ (doneWith [awaitPins]).pins.rst = false ∧
      (doneWith [awaitPins]).pins.rspReady = true) := by decide

theorem witness_NextRequestWaitsForDelivery :
    (doneWith [presentPins msbRequest, presentPins msbRequest]).delivers = true := by decide

theorem witness_AcceptedRequestIsDoneAfterLat :
    idleWithRequest.accepts = true ∧
    ∀ j, 1 ≤ j → j ≤ Config.lat idleWithRequest.portRequest.op idleWithRequest.portRequest.a idleWithRequest.portRequest.b →
      (idleWithRequest.pinsAfter j).rst = false := by
  refine ⟨rfl, fun j h₁ h₂ => ?_⟩
  obtain ⟨k, rfl⟩ : ∃ k, j = k + 1 := ⟨j - 1, by omega⟩
  have hk : k < Config.lat msbRequest.op msbRequest.a msbRequest.b + 1 := Nat.lt_succ_of_lt h₂
  have : idleWithRequest.inputs[k + 1]? = some awaitPins := by
    simp only [idleWithRequest, transactionPins, List.getElem?_cons_succ]
    exact List.getElem?_replicate_of_lt hk
  simp only [State.pinsAfter, this]
  rfl

theorem witness_HostTransactionDeliversExec :
    idleWithRequest.phase = .idle ∧ idleWithRequest.inputs = transactionPins msbRequest ++ [] := by
  refine ⟨rfl, ?_⟩
  rw [List.append_nil]
  rfl

/-- DONE with the answer to MSB of 255. -/
theorem witness_ResponsesAnswerRequestsInOrder : UnitInv (doneWith [awaitPins]) :=
  ⟨by decide, by decide, .inl (by decide), fun _ => by decide⟩

theorem witness_EveryStepKeepsTheUnitInvariant :
    UnitInv (doneWith [awaitPins]) ∧ step (doneWith [awaitPins]) = .next (doneWith [awaitPins]).deliverEdge :=
  ⟨witness_ResponsesAnswerRequestsInOrder, rfl⟩

theorem witness_StableRequestIsTheOneCaptured :
    let s := doneWith [presentPins msbRequest, presentPins msbRequest]
    hostKeepsRequest 1 s ∧ s.pins.reqValid = true ∧ Host.Core.run Sys2Proof.core 1 s = .next s.deliverEdge ∧
      s.deliverEdge.accepts = true ∧ step s.deliverEdge = .next s.deliverEdge.acceptEdge := by
  refine ⟨⟨rfl, fun t ht => ?_⟩, rfl, rfl, rfl, rfl⟩
  have h : step (doneWith [presentPins msbRequest, presentPins msbRequest]) =
      .next (doneWith [presentPins msbRequest, presentPins msbRequest]).deliverEdge := rfl
  rw [h] at ht
  injection ht with ht
  subst ht
  exact ⟨fun _ => ⟨rfl, rfl⟩, trivial⟩

theorem witness_OutcomeDependsOnlyOnCapturedWords :
    let s := busyOn 0x30 255 0
    let s' := { busyOn 0x30 255 0 with rspStatus := 1, rspCause := 1, edges := 9 }
    s.completes = true ∧ s'.completes = true ∧ s.captured = s'.captured ∧
      step s = .next (s.tick.present ⟨0, 0, 7⟩) ∧ step s' = .next (s'.tick.present ⟨0, 0, 7⟩) := by
  refine ⟨rfl, rfl, rfl, rfl, rfl⟩

theorem witness_UnreadOperandsAreIgnored :
    operandA .pi = .ignored ∧ operandB .pi = .ignored ∧ operandB .abs = .ignored := by decide

theorem witness_CauseDecidesStatusAndErrorsHaveNoResult : (execWord 0x31 0 0).status ≠ 0 := by decide

theorem witness_ErrorResponseWritesStatusCauseAndZero : (busyOn 0x31 0 0).completes = true ∧
    decode (busyOn 0x31 0 0).capOp = .ok .ispow2 ∧
    outcome .ispow2 (busyOn 0x31 0 0).capA (busyOn 0x31 0 0).capB = .error .pow2Zero := by
  refine ⟨rfl, rfl, rfl⟩

theorem witness_SignedResultsNeverWrap : InS MAX_WHOLE_59x18 ∧ InS 0 ∧ fFloor MAX_WHOLE_59x18 = .ok MAX_WHOLE_59x18 := by
  refine ⟨by decide, by decide, by rfl⟩

theorem witness_WholeBoundsAreTheExtremeMultiples : UNIT ∣ UNIT ∧ InS UNIT := by decide

theorem witness_TruncatingDivisionFollowsItsFormula : (-2 : Int) ≠ 0 ∧ (0 : Int) ≤ 7 ∧ (-7 : Int) ≤ 0 := by decide

theorem witness_AbsGivesTheMagnitude : sval (signedOn MIN_59x18 0).capA = MIN_59x18 ∧
    sval (signedOn (MIN_59x18 + 1) 0).capA ≠ MIN_59x18 := by decide

theorem witness_FloorGivesTheWholeValueBelow : sval (signedOn (MIN_WHOLE_59x18 - 1) 0).capA < MIN_WHOLE_59x18 ∧
    MIN_WHOLE_59x18 ≤ sval (signedOn MIN_WHOLE_59x18 0).capA := by decide

theorem witness_CeilGivesTheWholeValueAbove : MAX_WHOLE_59x18 < sval (signedOn (MAX_WHOLE_59x18 + 1) 0).capA ∧
    sval (signedOn MAX_WHOLE_59x18 0).capA ≤ MAX_WHOLE_59x18 := by decide

theorem witness_FracGivesTheTruncatingRemainder : 0 ≤ sval (signedOn 1 0).capA ∧ sval (signedOn (-1) 0).capA ≤ 0 := by
  decide

theorem witness_FloorCeilFracLaws : (fFloor 1 = .ok 0 ∧ fFrac 1 = .ok 1) ∧
    (fFloor (-1) = .ok (-UNIT) ∧ fFrac (-1) = .ok (-1) ∧ ¬ UNIT ∣ (-1 : Int)) ∧
    (fFloor (-UNIT) = .ok (-UNIT) ∧ fFrac (-UNIT) = .ok 0 ∧ UNIT ∣ -UNIT ∧ InS (-UNIT)) ∧
    fCeil (-1) = .ok 0 ∧ InS (-1) := by
  refine ⟨⟨rfl, rfl⟩, ⟨rfl, rfl, by decide⟩, ⟨rfl, rfl, by decide, by decide⟩, rfl, by decide⟩

theorem witness_DivTruncatesTheScaledQuotient :
    ¬ InS (sval (signedOn 57896044618658097711785492504343953926634992332820282019729 0).capA * UNIT) ∧
    (InS (sval (signedOn 57896044618658097711785492504343953926634992332820282019728 0).capA * UNIT) ∧
      sval (signedOn 57896044618658097711785492504343953926634992332820282019728 0).capB = 0) ∧
    (InS (sval (signedOn 57896044618658097711785492504343953926634992332820282019728 1).capA * UNIT) ∧
      sval (signedOn 57896044618658097711785492504343953926634992332820282019728 1).capB ≠ 0) := by decide

theorem witness_DivRangeErrorBoundAndOddness : fDiv 3 (-2000000000000000000) = .ok (-1) := by rfl

theorem witness_MulRoundsOnTheSignOfItsFirstOperand :
    ¬ InS (sval (signedOn MIN_59x18 (-1)).capA * sval (signedOn MIN_59x18 (-1)).capB) ∧
    (InS (sval (signedOn 1 (MAX_59x18 - HALF_UNIT + 1)).capA * sval (signedOn 1 (MAX_59x18 - HALF_UNIT + 1)).capB) ∧
      0 < sval (signedOn 1 (MAX_59x18 - HALF_UNIT + 1)).capA ∧
      MAX_59x18 - HALF_UNIT <
        sval (signedOn 1 (MAX_59x18 - HALF_UNIT + 1)).capA * sval (signedOn 1 (MAX_59x18 - HALF_UNIT + 1)).capB) ∧
    (InS (sval (signedOn MIN_59x18 1).capA * sval (signedOn MIN_59x18 1).capB) ∧ sval (signedOn MIN_59x18 1).capA ≤ 0 ∧
      sval (signedOn MIN_59x18 1).capA * sval (signedOn MIN_59x18 1).capB < MIN_59x18 + HALF_UNIT) ∧
    (InS (sval (signedOn 0 5).capA * sval (signedOn 0 5).capB) ∧ sval (signedOn 0 5).capA ≤ 0 ∧
      -HALF_UNIT = sval (signedOn 0 5).capA * sval (signedOn 0 5).capB - HALF_UNIT ∧ InS (-HALF_UNIT)) ∧
    (0 < sval (signedOn 1 (MAX_59x18 - HALF_UNIT)).capA ∧
      MAX_59x18 = sval (signedOn 1 (MAX_59x18 - HALF_UNIT)).capA * sval (signedOn 1 (MAX_59x18 - HALF_UNIT)).capB + HALF_UNIT ∧
      InS MAX_59x18) := by decide

theorem witness_MulByUnitIsTheIdentityInRange :
    |(57896044618658097711785492504343953926634992332820282019728 : Int)| ≤
      57896044618658097711785492504343953926634992332820282019728 ∧
    |(-57896044618658097711785492504343953926634992332820282019729 : Int)| >
      57896044618658097711785492504343953926634992332820282019728 := by decide

theorem witness_MulRoundingErrorAndCommutation : fMul 1 HALF_UNIT = .ok 1 ∧ (0 : Int) ≤ HALF_UNIT ∧
    fMul (-1) (-1) = .ok 0 ∧ (-1 : Int) < 0 := by
  refine ⟨rfl, by decide, rfl, by decide⟩

/-- DV28 and MV33, the case with deviation 2. -/
theorem witness_DivThenMulStaysWithinTheBound :
    fDiv 100000000000012345 (-777777777777777777) = .ok (-128571428571444443) ∧
    fMul (-128571428571444443) (-777777777777777777) = .ok 100000000000012343 := by
  constructor <;> rfl

theorem witness_MsbGivesTheHighestSetBit : uval (unsignedOn 0).capA = 0 ∧ uval (unsignedOn 1).capA ≠ 0 := by decide

theorem witness_Ispow2TellsOneSetBit : uval (unsignedOn 0).capA = 0 ∧
    (∃! k : Nat, (uval (unsignedOn 1).capA).testBit k = true) ∧
    (uval (unsignedOn 3).capA ≠ 0 ∧ ¬ ∃! k : Nat, (uval (unsignedOn 3).capA).testBit k = true) := by
  have h₁ : uval (unsignedOn 1).capA = 1 := by decide
  have h₃ : uval (unsignedOn 3).capA = 3 := by decide
  refine ⟨by decide, ⟨0, by rw [h₁]; rfl, fun k hk => ?_⟩, by decide, ?_⟩
  · rcases k with _ | k
    · rfl
    · rw [h₁] at hk
      simp [Nat.testBit_succ] at hk
  · rintro ⟨k, _, hk⟩
    have a := hk 0 (by rw [h₃]; rfl)
    have b := hk 1 (by rw [h₃]; rfl)
    omega

theorem witness_Nextpow2RoundsUpAndWraps : uval (unsignedOn 0).capA = 0 ∧ 1 ≤ uval (unsignedOn 1).capA ∧
    uval (unsignedOn (2 ^ 255)).capA ≤ 2 ^ 255 ∧ 2 ^ 255 < uval (unsignedOn (2 ^ 255 + 1)).capA := by decide

theorem witness_SpreadAndAlignHelpers : InS MAX_59x18 ∧ 0 < MAX_59x18 ∧ (2 : Nat) ^ 255 < 2 ^ 256 := by decide

theorem witness_Log2IsTheSumOfItsBits : sval (signedOn 0 0).capA ≤ 0 ∧ 0 < sval (signedOn 1 0).capA ∧
    sval (signedOn 1 0).capA < UNIT ∧ ¬ sval (signedOn UNIT 0).capA < UNIT := by decide

theorem witness_LogStagesNormalise : (0 : Int) < 1 ∧ InS 1 ∧ (1 : Int) < UNIT ∧ UNIT ≤ MAX_59x18 ∧ InS MAX_59x18 := by
  decide

theorem witness_LogIterationKeepsItsInvariant :
    UNIT ≤ (logStart 1 3000000000000000000).y ∧ (logStart 1 3000000000000000000).y < TWICE_UNIT ∧
    TWICE_UNIT * UNIT ≤ (logStart 1 3000000000000000000).y * (logStart 1 3000000000000000000).y ∧
    UNIT * UNIT < TWICE_UNIT * UNIT := by decide

theorem witness_LogLoopRunsFiftyNineIterations : (logStart 1 3000000000000000000).delta = HALF_UNIT ∧ 59 ≤ logFuel := by
  decide

theorem witness_Log2IsExactOnPowersOfTwo : 2 ^ 195 * UNIT ≤ MAX_59x18 ∧ ¬ 2 ^ 196 * UNIT ≤ MAX_59x18 := by decide

theorem witness_Log2IsMonotone : InS 1 ∧ InS UNIT ∧ (1 : Int) ≤ UNIT ∧ fLog2 1 = .ok (-59794705707972522245) ∧
    fLog2 UNIT = .ok 0 := by
  refine ⟨by decide, by decide, by decide, by rfl, by rfl⟩

theorem witness_Log2RangeAndSign : (0 : Int) < 1 ∧ InS 1 ∧ (1 : Int) < UNIT ∧ InS UNIT := by decide

theorem witness_LnIsLog2TimesLn2 : sval (signedOn 0 0).capA ≤ 0 ∧ 0 < sval (signedOn 1 0).capA := by decide

theorem witness_SignatureOnlyCommandsAnswerUnimplemented : Instr.exp = .muldiv ∨ Instr.exp = .sqrt ∨ Instr.exp = .exp ∨
    Instr.exp = .exp2 := by decide

theorem witness_AssemblerZeroesUnusedOperands :
    (assemble [] (.op .abs [.dec 5]) = some { op := 0x10, a := 5, b := 0 } ∧ operandB .abs = .ignored) ∧
    (assemble [] (.op .pi []) = some { op := 0x52, a := 0, b := 0 } ∧ operandA .pi = .ignored) ∧
    assemble [] (.op .div [.dec 5, .hex 7]) = some { op := 0x20, a := 5, b := 7 } ∧
    (InS MIN_59x18 ∧ InS MAX_59x18 ∧ InU 0 ∧ InU (2 ^ 256 - 1) ∧ (2 : Nat) ^ 256 - 1 < 2 ^ 256) ∧
    List.lookup 4 [(4, (⟨0, 0, 9⟩ : Response))] = some ⟨0, 0, 9⟩ := by decide

theorem witness_ScriptLineStoresExecUnderItsGuard :
    assemble [] (.op .pi []) = some { op := 0x52, a := 0, b := 0 } ∧
    (List.lookup 4 [(4, (⟨1, 2, 0⟩ : Response)), (3, ⟨0, 0, 0⟩)] = some ⟨1, 2, 0⟩ ∧ (⟨1, 2, 0⟩ : Response).status ≠ 0) ∧
    (List.lookup 3 [(4, (⟨1, 2, 0⟩ : Response)), (3, ⟨0, 0, 0⟩)] = some ⟨0, 0, 0⟩ ∧ (⟨0, 0, 0⟩ : Response).status = 0) := by
  decide

end Sys2Proof.Tests
end

section
/-! PROOFS. Truncating division and remainder (R14), from Lean's own `Int.tdiv` and `Int.tmod`. -/

namespace Sys2Proof.Machine

theorem trem_eq_tmod (a b : Int) : trem a b = a.tmod b := (Int.tmod_def a b).symm

theorem mul_tdiv_add_trem (a b : Int) : b * tdiv a b + trem a b = a := by
  simp only [trem]
  omega

theorem trem_nonneg {a : Int} (b : Int) (h : 0 ≤ a) : 0 ≤ trem a b := by
  rw [trem_eq_tmod]
  exact Int.tmod_nonneg b h

theorem trem_nonpos {a : Int} (b : Int) (h : a ≤ 0) : trem a b ≤ 0 := by
  have hneg : 0 ≤ (-a).tmod b := Int.tmod_nonneg b (by omega)
  rw [Int.neg_tmod] at hneg
  rw [trem_eq_tmod]
  omega

theorem abs_trem_lt (a : Int) {b : Int} (hb : b ≠ 0) : |trem a b| < |b| := by
  rw [trem_eq_tmod, Int.abs_eq_natAbs, Int.abs_eq_natAbs, Int.natAbs_tmod]
  exact_mod_cast Nat.mod_lt _ (Int.natAbs_pos.mpr hb)

theorem abs_tdiv_le_abs (a b : Int) : |tdiv a b| ≤ |a| := by
  rw [Int.abs_eq_natAbs, Int.abs_eq_natAbs]
  exact_mod_cast Int.natAbs_tdiv_le_natAbs a b

/-- The formula of R14. A dividend smaller than the divisor gives 0 on both sides, whatever the signs. -/
theorem tdiv_eq_sign_mul_sign_mul_natAbs_div (a b : Int) :
    tdiv a b = a.sign * b.sign * ((a.natAbs / b.natAbs : Nat) : Int) := by
  have hsize : (tdiv a b).natAbs = a.natAbs / b.natAbs := Int.natAbs_tdiv a b
  have hsign : (tdiv a b).sign = if a.natAbs < b.natAbs then 0 else a.sign * b.sign := Int.sign_tdiv a b
  rw [← Int.sign_mul_natAbs (tdiv a b), hsize, hsign]
  split
  next hlt => simp [Nat.div_eq_of_lt hlt]
  next => rfl

/-- Settles O30: Lean's truncating division is the formula of R14, and the remainder's sign and size are those of
`Int.tmod`. -/
theorem truncatingDivisionFollowsItsFormula : Obligations.TruncatingDivisionFollowsItsFormula := by
  intro a b hb
  exact ⟨tdiv_eq_sign_mul_sign_mul_natAbs_div a b, rfl, abs_trem_lt a hb, trem_nonneg b, trem_nonpos b⟩

end Sys2Proof.Machine
end

section
/-! PROOFS. The whole-value bounds (R9): a multiple of UNIT that stays within one UNIT of a bound does not pass it. -/

namespace Sys2Proof.Machine

theorem unit_pos : 0 < UNIT := by decide

theorem minWhole_le_of_dvd {m : Int} (hm : UNIT ∣ m) (h : MIN_WHOLE_59x18 - UNIT < m) : MIN_WHOLE_59x18 ≤ m := by
  obtain ⟨k, rfl⟩ := hm
  simp only [UNIT, MIN_WHOLE_59x18] at h ⊢
  omega

theorem le_maxWhole_of_dvd {m : Int} (hm : UNIT ∣ m) (h : m < MAX_WHOLE_59x18 + UNIT) : m ≤ MAX_WHOLE_59x18 := by
  obtain ⟨k, rfl⟩ := hm
  simp only [UNIT, MAX_WHOLE_59x18] at h ⊢
  omega

/-- A multiple of UNIT in the signed range lies between the whole-value bounds: MIN_59x18 and MAX_59x18 are less than one
UNIT beyond them. -/
theorem whole_bounds_of_inS {m : Int} (hm : UNIT ∣ m) (h : InS m) : MIN_WHOLE_59x18 ≤ m ∧ m ≤ MAX_WHOLE_59x18 := by
  have hmin : MIN_WHOLE_59x18 - UNIT < MIN_59x18 := by decide
  have hmax : MAX_59x18 < MAX_WHOLE_59x18 + UNIT := by decide
  exact ⟨minWhole_le_of_dvd hm (hmin.trans_le h.1), le_maxWhole_of_dvd hm (h.2.trans_lt hmax)⟩

theorem inS_of_whole_bounds {v : Int} (hmin : MIN_WHOLE_59x18 ≤ v) (hmax : v ≤ MAX_WHOLE_59x18) : InS v :=
  ⟨le_trans (by decide) hmin, hmax.trans (by decide)⟩

theorem inS_of_abs_le_maxWhole {v : Int} (h : |v| ≤ MAX_WHOLE_59x18) : InS v :=
  inS_of_whole_bounds (abs_le.mp h).1 (abs_le.mp h).2

/-- Settles O29: the digits and distances of R9 are closed facts, and no multiple in range lies beyond the bounds. -/
theorem wholeBoundsAreTheExtremeMultiples : Obligations.WholeBoundsAreTheExtremeMultiples :=
  ⟨rfl, by decide, by decide, by decide, by decide, fun _ hm h => whole_bounds_of_inS hm h, by decide, by decide, rfl⟩

end Sys2Proof.Machine
end

section
/-! PROOFS. Completion: every edge has a next state, and every command ends in DONE with its frame kept (R19, R183). -/

namespace Sys2Proof.Machine

/-- Settles O6: each phase, with and without reset, has the next state its edge gives. -/
theorem everyEdgeHasANextState : Obligations.EveryEdgeHasANextState := by
  intro s
  cases hr : s.pins.rst with
  | true => exact ⟨_, step_of_rst hr⟩
  | false =>
    cases hp : s.phase with
    | idle => exact ⟨_, step_of_idle hr hp⟩
    | done => exact ⟨_, step_of_done hr hp⟩
    | busy =>
      rcases Nat.lt_or_ge 1 s.latLeft with hl | hl
      · exact ⟨_, step_of_wait hr hp hl⟩
      · exact ⟨_, step_of_complete hr hp hl⟩

/-- Settles O22: `exec` is one `present` of the outcome's response (`exec_eq_present`), and `present` keeps the rest. -/
theorem everyCommandCompletesAndKeepsItsFrame : Obligations.EveryCommandCompletesAndKeepsItsFrame := by
  intro i s
  exact ⟨_, exec_eq_present i s, by simp⟩

end Sys2Proof.Machine
end

section
/-! PROOFS. Families 1 and 2 keep the signed range (R16, R81 to R84, R101, R102). -/

namespace Sys2Proof.Machine

theorem fFloor_of_lt {x : Int} (h : x < MIN_WHOLE_59x18) : fFloor x = .error .floorBelowMinWhole := if_pos h

theorem fCeil_of_gt {x : Int} (h : MAX_WHOLE_59x18 < x) : fCeil x = .error .ceilAboveMaxWhole := if_pos h

theorem trem_unit_lt (x : Int) : -UNIT < trem x UNIT ∧ trem x UNIT < UNIT :=
  abs_lt.mp ((abs_trem_lt x unit_pos.ne').trans_eq (abs_of_pos unit_pos))

/-- Removing the remainder leaves a multiple of UNIT. -/
theorem unit_dvd_sub_trem (x : Int) : UNIT ∣ x - trem x UNIT :=
  ⟨tdiv x UNIT, by have := mul_tdiv_add_trem x UNIT; omega⟩

/-- FLOOR at or above its bound gives the greatest multiple of UNIT that is at most x (R82). -/
theorem fFloor_of_ge {x : Int} (h : MIN_WHOLE_59x18 ≤ x) :
    ∃ w, fFloor x = .ok w ∧ UNIT ∣ w ∧ w ≤ x ∧ x < w + UNIT := by
  have hdvd := unit_dvd_sub_trem x
  have hlt := trem_unit_lt x
  have hpos := unit_pos
  by_cases hr : trem x UNIT = 0
  · exact ⟨x, by simp [fFloor, h.not_gt, hr], by simpa [hr] using hdvd, le_rfl, by omega⟩
  · by_cases hx : x < 0
    · have := trem_nonpos UNIT hx.le
      exact ⟨x - trem x UNIT - UNIT, by simp [fFloor, h.not_gt, hr, hx], hdvd.sub dvd_rfl, by omega, by omega⟩
    · have := trem_nonneg UNIT (not_lt.mp hx)
      exact ⟨x - trem x UNIT, by simp [fFloor, h.not_gt, hr, hx], hdvd, by omega, by omega⟩

/-- CEIL at or below its bound gives the least multiple of UNIT that is at least x (R83). -/
theorem fCeil_of_le {x : Int} (h : x ≤ MAX_WHOLE_59x18) :
    ∃ w, fCeil x = .ok w ∧ UNIT ∣ w ∧ x ≤ w ∧ w < x + UNIT := by
  have hdvd := unit_dvd_sub_trem x
  have hlt := trem_unit_lt x
  have hpos := unit_pos
  by_cases hr : trem x UNIT = 0
  · exact ⟨x, by simp [fCeil, h.not_gt, hr], by simpa [hr] using hdvd, le_rfl, by omega⟩
  · by_cases hx : 0 < x
    · have := trem_nonneg UNIT hx.le
      exact ⟨x - trem x UNIT + UNIT, by simp [fCeil, h.not_gt, hr, hx], hdvd.add dvd_rfl, by omega, by omega⟩
    · have := trem_nonpos UNIT (not_lt.mp hx)
      exact ⟨x - trem x UNIT, by simp [fCeil, h.not_gt, hr, hx], hdvd, by omega, by omega⟩

theorem inS_of_fAbs_ok {x v : Int} (hx : InS x) (h : fAbs x = .ok v) : InS v := by
  simp only [fAbs] at h
  split at h
  next => cases h
  next hne =>
    simp only [InS, MIN_59x18, MAX_59x18] at hx hne ⊢
    split at h
    · obtain rfl := Except.ok.inj h
      omega
    · obtain rfl := Except.ok.inj h
      omega

theorem inS_of_fFloor_ok {x v : Int} (hx : InS x) (h : fFloor x = .ok v) : InS v := by
  rcases lt_or_ge x MIN_WHOLE_59x18 with hlt | hge
  · rw [fFloor_of_lt hlt] at h
    cases h
  · obtain ⟨w, hw, hdvd, hle, hlt⟩ := fFloor_of_ge hge
    obtain rfl : w = v := Except.ok.inj (hw.symm.trans h)
    have hmin : MIN_WHOLE_59x18 ≤ w := minWhole_le_of_dvd hdvd (by omega)
    exact ⟨le_trans (by decide) hmin, hle.trans hx.2⟩

theorem inS_of_fCeil_ok {x v : Int} (hx : InS x) (h : fCeil x = .ok v) : InS v := by
  rcases lt_or_ge MAX_WHOLE_59x18 x with hgt | hle
  · rw [fCeil_of_gt hgt] at h
    cases h
  · obtain ⟨w, hw, hdvd, hge, hlt⟩ := fCeil_of_le hle
    obtain rfl : w = v := Except.ok.inj (hw.symm.trans h)
    have hmax : w ≤ MAX_WHOLE_59x18 := le_maxWhole_of_dvd hdvd (by omega)
    exact ⟨hx.1.trans hge, hmax.trans (by decide)⟩

theorem inS_of_fFrac_ok {x v : Int} (h : fFrac x = .ok v) : InS v := by
  obtain rfl : trem x UNIT = v := Except.ok.inj h
  have hunit : |UNIT| ≤ MAX_WHOLE_59x18 := by decide
  exact inS_of_abs_le_maxWhole ((abs_trem_lt x unit_pos.ne').le.trans hunit)

/-- The dividend is a multiple of UNIT in range, so it is not MIN_59x18 and no divisor, −1 either, takes it out of range. -/
theorem inS_of_fDiv_ok {x y v : Int} (h : fDiv x y = .ok v) : InS v := by
  rw [fDiv_eq] at h
  split at h
  next hp =>
    split at h
    next => cases h
    next =>
      obtain rfl := Except.ok.inj h
      have hwhole : |x * UNIT| ≤ MAX_WHOLE_59x18 := abs_le.mpr (whole_bounds_of_inS (dvd_mul_left UNIT x) hp)
      exact inS_of_abs_le_maxWhole ((abs_tdiv_le_abs _ y).trans hwhole)
  next => cases h

theorem inS_tdiv_unit {q : Int} (h : InS q) : InS (tdiv q UNIT) := by
  have hq := mul_tdiv_add_trem q UNIT
  have hr := trem_unit_lt q
  simp only [InS, UNIT, MIN_59x18, MAX_59x18] at h hq hr ⊢
  omega

theorem inS_of_fMul_ok {x y v : Int} (h : fMul x y = .ok v) : InS v := by
  rw [fMul_eq] at h
  generalize (if x > 0 then x * y + HALF_UNIT else x * y - HALF_UNIT) = q at h
  split at h
  next =>
    split at h
    next hq => exact Except.ok.inj h ▸ inS_tdiv_unit hq
    next => cases h
  next => cases h

end Sys2Proof.Machine
end

section
/-! PROOFS. Family 4 keeps the signed range (R141 to R147): the working result never exceeds 256 in size, since its integer
part is at most 255 and the weights still to come add up to less than 2·delta. -/

namespace Sys2Proof.Machine

theorem msbSearch_le (steps : List Nat) (u m : Nat) : msbSearch steps u m ≤ m + steps.sum := by
  induction steps generalizing u m with
  | nil => simp [msbSearch]
  | cons s rest ih =>
    simp only [msbSearch, List.sum_cons]
    split
    · have := ih (lsr u s) (m + s)
      omega
    · have := ih u m
      omega

theorem fMsb_le (u : Nat) : fMsb u ≤ 255 := msbSearch_le msbSteps u 0

/-- Everything a LOG2 that ends with a value did: the argument is positive, stage 1 gave sign and x', and the value is the
working result at the start of stage 4 or at its end (R141). -/
theorem fLog2_ok_cases {x v : Int} (h : fLog2 x = .ok v) :
    0 < x ∧ ∃ sign x', logReciprocal x = .ok (sign, x') ∧
      (v = (logStart sign x').res ∨ v = (logLoop logFuel (logStart sign x')).res) := by
  rcases le_or_gt x 0 with hx | hx
  · rw [fLog2_of_nonpos hx] at h
    cases h
  · refine ⟨hx, ?_⟩
    cases hrec : logReciprocal x with
    | error c => simp [fLog2, hx.not_ge, hrec, bind, Except.bind] at h
    | ok p =>
      obtain ⟨sign, x'⟩ := p
      simp only [fLog2, hx.not_ge, hrec, if_false, bind, Except.bind] at h
      refine ⟨sign, x', rfl, ?_⟩
      split at h
      · exact .inl (Except.ok.inj h).symm
      · exact .inr (Except.ok.inj h).symm

theorem logReciprocal_ok_sign {x sign x' : Int} (h : logReciprocal x = .ok (sign, x')) : sign = 1 ∨ sign = -1 := by
  simp only [logReciprocal] at h
  split at h
  · cases hd : fDiv UNIT x with
    | error c => simp [hd, Except.map] at h
    | ok d =>
      simp only [hd, Except.map, Except.ok.injEq, Prod.mk.injEq] at h
      exact .inr h.1.symm
  · simp only [Except.ok.injEq, Prod.mk.injEq] at h
    exact .inl h.1.symm

/-- The working result and twice the weight of the bit being decided stay within 256 in size, whatever the bits are. -/
structure LogBounded (r : LogRegs) : Prop where
  sign : r.sign = 1 ∨ r.sign = -1
  delta : 0 ≤ r.delta
  res : |r.res| + 2 * r.delta ≤ 256 * UNIT

theorem LogBounded.abs_res_le {r : LogRegs} (h : LogBounded r) : |r.res| ≤ 256 * UNIT := by
  have hd := h.delta
  have hr := h.res
  omega

theorem logStart_bounded {sign : Int} (x' : Int) (hs : sign = 1 ∨ sign = -1) : LogBounded (logStart sign x') where
  sign := hs
  delta := (by decide : 0 ≤ HALF_UNIT)
  res := by
    have hsize : |(logStart sign x').res| = (logIntPart x' : Int) * UNIT := by
      have : |sign| = 1 := by rcases hs with rfl | rfl <;> rfl
      simp [logStart, abs_mul, this, abs_of_pos unit_pos]
    have hn : logIntPart x' ≤ 255 := fMsb_le _
    rw [hsize]
    simp only [logStart, UNIT, HALF_UNIT]
    omega

theorem logIter_bounded {r : LogRegs} (h : LogBounded r) : LogBounded (logIter r) := by
  obtain ⟨hsign, hdelta, hres⟩ := h
  have htake : |r.res + r.delta * r.sign| ≤ |r.res| + r.delta := by
    refine (abs_add_le _ _).trans_eq ?_
    rcases hsign with hs | hs <;> simp [hs, abs_of_nonneg hdelta]
  simp only [logIter, asr]
  split
  · exact ⟨hsign, by dsimp only; omega, by dsimp only; omega⟩
  · exact ⟨hsign, by dsimp only; omega, by dsimp only; omega⟩

theorem logLoop_bounded {r : LogRegs} (fuel : Nat) (h : LogBounded r) : LogBounded (logLoop fuel r) := by
  induction fuel generalizing r with
  | zero => exact h
  | succ n ih =>
    simp only [logLoop]
    split
    · exact ih (logIter_bounded h)
    · exact h

theorem inS_of_fLog2_ok {x v : Int} (h : fLog2 x = .ok v) : InS v := by
  obtain ⟨-, sign, x', hrec, hv⟩ := fLog2_ok_cases h
  have hstart : LogBounded (logStart sign x') := logStart_bounded x' (logReciprocal_ok_sign hrec)
  have hsize : |v| ≤ 256 * UNIT := by
    rcases hv with rfl | rfl
    · exact hstart.abs_res_le
    · exact (logLoop_bounded logFuel hstart).abs_res_le
  exact inS_of_abs_le_maxWhole (hsize.trans (by decide))

theorem inS_of_fLn_ok {x v : Int} (h : fLn x = .ok v) : InS v := by
  rw [fLn_eq] at h
  cases hl : fLog2 x with
  | error c => simp [hl, Except.bind] at h
  | ok l =>
    rw [hl] at h
    exact inS_of_fMul_ok h

/-- Settles O28: each operation's value lies in the signed range, and a word in range reads back as its value. -/
theorem signedResultsNeverWrap : Obligations.SignedResultsNeverWrap := by
  intro x y v hx _ h
  have hv : InS v := by
    rcases h with h | h | h | h | h | h | h | h
    · exact inS_of_fAbs_ok hx h
    · exact inS_of_fFloor_ok hx h
    · exact inS_of_fCeil_ok hx h
    · exact inS_of_fFrac_ok h
    · exact inS_of_fDiv_ok h
    · exact inS_of_fMul_ok h
    · exact inS_of_fLog2_ok h
    · exact inS_of_fLn_ok h
  exact ⟨hv, sval_enc hv⟩

end Sys2Proof.Machine
end

section
/-! PROOFS. The handshake ports and the edges at which a request is accepted, completed and delivered (R26 to R28, R34, R35,
R37), each as the phase and the input ports that make it. -/

namespace Sys2Proof.Machine

theorem State.reqReady_iff (s : State) : s.reqReady = true ↔ s.phase = .idle ∧ s.pins.rst = false := by
  simp [State.reqReady]

theorem State.rspValid_iff (s : State) : s.rspValid = true ↔ s.phase = .done ∧ s.pins.rst = false := by
  simp [State.rspValid]

theorem State.rspPorts_of_rspValid {s : State} (h : s.rspValid = true) : s.rspPorts = some s.rspRegs := if_pos h

theorem State.rspPorts_eq_none_iff (s : State) : s.rspPorts = none ↔ s.rspValid = false := by
  simp [State.rspPorts]

theorem State.accepts_iff (s : State) :
    s.accepts = true ↔ s.phase = .idle ∧ s.pins.rst = false ∧ s.pins.reqValid = true := by
  rw [State.accepts, Bool.and_eq_true, State.reqReady_iff]
  tauto

theorem State.completes_iff (s : State) :
    s.completes = true ↔ s.phase = .busy ∧ s.pins.rst = false ∧ s.latLeft ≤ 1 := by
  simp [State.completes, and_assoc]

theorem State.delivers_iff (s : State) :
    s.delivers = true ↔ s.phase = .done ∧ s.pins.rst = false ∧ s.pins.rspReady = true := by
  rw [State.delivers, Bool.and_eq_true, State.rspValid_iff, and_assoc]

/-- Settles O13: each output port is the condition of R34, R35 or R37. -/
theorem handshakeOutputsFollowPhaseAndReset : Obligations.HandshakeOutputsFollowPhaseAndReset := fun s =>
  ⟨s.reqReady_iff, s.rspValid_iff, s.rspPorts_eq_none_iff⟩

end Sys2Proof.Machine
end

section
/-! PROOFS. Reset: the reset edge from any state, and the state after reset (R36, R212). -/

namespace Sys2Proof.Machine

theorem rspValid_of_idle {s : State} (h : s.phase = .idle) : s.rspValid = false := by
  simp [State.rspValid, h]

/-- Settles O7: the step is `resetEdge`, and IDLE presents no response and takes requests once `rst = 0`. -/
theorem resetEdgeFromAnyState : Obligations.ResetEdgeFromAnyState := by
  intro s hr
  have hv : s.resetEdge.rspValid = false := rspValid_of_idle rfl
  exact ⟨s.resetEdge, step_of_rst hr, rfl, rfl, rfl, rfl, hv, (State.rspPorts_eq_none_iff _).2 hv,
    fun hr' => (State.reqReady_iff _).2 ⟨rfl, hr'⟩⟩

/-- Settles O8: the register values are those of the definition, and IDLE presents no response. -/
theorem resetStateHasTheGivenValues : Obligations.ResetStateHasTheGivenValues :=
  ⟨rfl, rfl, rfl, rfl, (State.rspPorts_eq_none_iff _).2 (rspValid_of_idle rfl)⟩

/-- Settles O20: the reset state is IDLE with count 0 and the response registers OK / NONE. -/
theorem resetStateMeetsTheUnitInvariant : Obligations.ResetStateMeetsTheUnitInvariant where
  busy_counts h := by cases h
  others_rest _ := rfl
  codes_agree := .inl ⟨rfl, rfl⟩
  done_answers h := by cases h

end Sys2Proof.Machine
end

section
/-! PROOFS. What the step is at each of these edges, and what becomes of the phase, the captured request and the response
registers (R28 to R30, R32). -/

namespace Sys2Proof.Machine

@[simp] theorem State.tick_captured (s : State) : s.tick.captured = s.captured := rfl
@[simp] theorem State.acceptEdge_captured (s : State) : s.acceptEdge.captured = s.portRequest := rfl
@[simp] theorem State.waitEdge_captured (s : State) : s.waitEdge.captured = s.captured := rfl
@[simp] theorem State.deliverEdge_captured (s : State) : s.deliverEdge.captured = s.captured := rfl
@[simp] theorem State.present_captured (s : State) (r : Response) : (s.present r).captured = s.captured := rfl

theorem step_of_accepts {s : State} (h : s.accepts = true) : step s = .next s.acceptEdge := by
  obtain ⟨hp, hr, hv⟩ := s.accepts_iff.1 h
  rw [step_of_idle hr hp, State.idleEdge, if_pos hv]

theorem step_of_completes {s : State} (h : s.completes = true) :
    step s = .next (s.tick.present (execWord s.capOp s.capA s.capB)) := by
  obtain ⟨hp, hr, hl⟩ := s.completes_iff.1 h
  exact step_of_complete hr hp hl

theorem step_of_delivers {s : State} (h : s.delivers = true) : step s = .next s.deliverEdge := by
  obtain ⟨hp, hr, hv⟩ := s.delivers_iff.1 h
  rw [step_of_done hr hp, State.doneEdge, if_pos hv]

/-- Everything a step can do, by the event at its edge: a reset, an acceptance, a completion, a delivery, a BUSY edge
before the last, or nothing. -/
theorem step_event_cases {s t : State} (h : step s = .next t) :
    (s.pins.rst = true ∧ t = s.resetEdge) ∨
    (s.accepts = true ∧ t = s.acceptEdge) ∨
    (s.completes = true ∧ t = s.tick.present (execWord s.capOp s.capA s.capB)) ∨
    (s.delivers = true ∧ t = s.deliverEdge) ∨
    (s.phase = .busy ∧ 1 < s.latLeft ∧ t = s.waitEdge) ∨
    (s.phase ≠ .busy ∧ t = s.tick) := by
  rcases step_cases h with ⟨hr, ht⟩ | ⟨hr, hp, hv, ht⟩ | ⟨-, hp, -, ht⟩ | ⟨-, hp, hl, ht⟩ | ⟨hr, hp, hl, ht⟩ |
    ⟨hr, hp, hv, ht⟩ | ⟨-, hp, -, ht⟩
  · exact .inl ⟨hr, ht⟩
  · exact .inr (.inl ⟨s.accepts_iff.2 ⟨hp, hr, hv⟩, ht⟩)
  · exact .inr (.inr (.inr (.inr (.inr ⟨by simp [hp], ht⟩))))
  · exact .inr (.inr (.inr (.inr (.inl ⟨hp, hl, ht⟩))))
  · exact .inr (.inr (.inl ⟨s.completes_iff.2 ⟨hp, hr, hl⟩, ht⟩))
  · exact .inr (.inr (.inr (.inl ⟨s.delivers_iff.2 ⟨hp, hr, hv⟩, ht⟩)))
  · exact .inr (.inr (.inr (.inr (.inr ⟨by simp [hp], ht⟩))))

/-- A step has one next state. -/
theorem eq_of_step {s t u : State} (ht : step s = .next t) (hu : step s = .next u) : t = u :=
  Host.Outcome.next.inj (ht.symm.trans hu)

theorem captured_of_not_accepts {s t : State} (h : step s = .next t) (ha : s.accepts = false) (hr : s.pins.rst = false) :
    t.captured = s.captured := by
  rcases step_event_cases h with ⟨hr', -⟩ | ⟨ha', -⟩ | ⟨-, rfl⟩ | ⟨-, rfl⟩ | ⟨-, -, rfl⟩ | ⟨-, rfl⟩
  · simp [hr] at hr'
  · simp [ha] at ha'
  all_goals rfl

theorem rspRegs_of_not_completes {s t : State} (h : step s = .next t) (hc : s.completes = false)
    (hr : s.pins.rst = false) : t.rspRegs = s.rspRegs := by
  rcases step_event_cases h with ⟨hr', -⟩ | ⟨-, rfl⟩ | ⟨hc', -⟩ | ⟨-, rfl⟩ | ⟨-, -, rfl⟩ | ⟨-, rfl⟩
  · simp [hr] at hr'
  · rfl
  · simp [hc] at hc'
  all_goals rfl

theorem rspRegs_of_completes {s t : State} (h : step s = .next t) (hc : s.completes = true) :
    t.rspRegs = execWord s.captured.op s.captured.a s.captured.b := by
  rw [eq_of_step h (step_of_completes hc)]
  rfl

theorem rspRegs_of_exec {i : Instr} {s t : State} (h : exec i s = .next t) :
    t.rspRegs = respond (outcome i s.capA s.capB) := by
  rw [exec_eq_present] at h
  injection h with h
  rw [← h, State.present_rspRegs]

theorem one_le_lat (op : Command) (a b : Word) : 1 ≤ Config.lat op a b := Nat.le_add_left 1 _

/-- Settles O4: both sides write the response to the command's outcome on the captured operands. -/
theorem stepRunsTheDecodedCommand : Obligations.StepRunsTheDecodedCommand := by
  intro s i hr hp hl hi
  rw [step_of_complete hr hp hl, exec_eq_present, execWord_of_decode hi, State.tick_capA, State.tick_capB]

/-- Settles O10: each event fixes its edge; without one, the step is a BUSY wait or changes no register. -/
theorem phaseChangesOnlyAtItsEdges : Obligations.PhaseChangesOnlyAtItsEdges := by
  intro s t h
  refine ⟨fun ha => ?_, fun hc => ?_, fun hd => ?_, fun hr => ?_, fun ha hc hd hr => ?_⟩
  · obtain rfl := eq_of_step h (step_of_accepts ha)
    exact ⟨(s.accepts_iff.1 ha).1, rfl, rfl, one_le_lat _ _ _⟩
  · obtain ⟨hp, -, hl⟩ := s.completes_iff.1 hc
    exact ⟨hp, hl, by rw [eq_of_step h (step_of_completes hc), State.present_phase]⟩
  · exact ⟨(s.delivers_iff.1 hd).1, by rw [eq_of_step h (step_of_delivers hd), State.deliverEdge_phase]⟩
  · rw [eq_of_step h (step_of_rst hr), State.resetEdge_phase]
  · rcases step_event_cases h with ⟨hr', -⟩ | ⟨ha', -⟩ | ⟨hc', -⟩ | ⟨hd', -⟩ | ⟨-, hl, rfl⟩ | ⟨hp, rfl⟩
    · simp [hr] at hr'
    · simp [ha] at ha'
    · simp [hc] at hc'
    · simp [hd] at hd'
    · exact ⟨rfl, fun _ => Nat.sub_add_cancel hl.le⟩
    · exact ⟨rfl, fun hb => absurd hb hp⟩

/-- Settles O11: acceptance captures the ports, no other edge without reset writes the capture registers, and the answer of
`exec` is a function of the captured operands. -/
theorem captureRegistersFeedTheCommand : Obligations.CaptureRegistersFeedTheCommand := by
  refine ⟨fun s t h ha => ?_, fun s t => captured_of_not_accepts, fun i s t u ps n ht hu => ?_⟩
  · rw [eq_of_step h (step_of_accepts ha), State.acceptEdge_captured]
  · rw [rspRegs_of_exec ht, rspRegs_of_exec hu]

/-- Settles O12: the BUSY-to-DONE edge writes Exec, no other edge without reset writes the response registers, and in DONE
without reset they are on the ports. -/
theorem responseRegistersHoldExec : Obligations.ResponseRegistersHoldExec := by
  intro s t h
  refine ⟨fun hc => ⟨?_, rspRegs_of_completes h hc⟩, rspRegs_of_not_completes h, fun hp hr => ?_⟩
  · rw [eq_of_step h (step_of_completes hc), State.present_phase]
  · exact State.rspPorts_of_rspValid (t.rspValid_iff.2 ⟨hp, hr⟩)

/-- Settles O23: at a BUSY-to-DONE edge the response is Exec of the captured request. -/
theorem outcomeDependsOnlyOnCapturedWords : Obligations.OutcomeDependsOnlyOnCapturedWords := by
  intro s s' t t' hc hc' hcap h h'
  rw [rspRegs_of_completes h hc, rspRegs_of_completes h' hc', hcap]

end Sys2Proof.Machine
end

section
/-! PROOFS. The invariant of the unit: each kind of edge keeps it (R28, R30, R69, R71). -/

namespace Sys2Proof.Machine

theorem respond_codes_agree (r : OpResult Word) :
    ((respond r).status = 0 ∧ (respond r).cause = 0) ∨
      ∃ c : Cause, (respond r).status = c.status.code ∧ (respond r).cause = c.code ∧ (respond r).result = 0 := by
  cases r with
  | ok w => exact .inl ⟨rfl, rfl⟩
  | error c => exact .inr ⟨c, rfl, rfl, rfl⟩

theorem execWord_eq_respond (op : Command) (a b : Word) : ∃ r, execWord op a b = respond r := by
  cases h : decode op with
  | ok i => exact ⟨_, execWord_of_decode h a b⟩
  | error e => exact ⟨_, execWord_of_reserved h a b⟩

theorem UnitInv.resetEdge (s : State) : UnitInv s.resetEdge where
  busy_counts h := by cases h
  others_rest _ := rfl
  codes_agree := .inl ⟨rfl, rfl⟩
  done_answers h := by cases h

theorem UnitInv.tick {s : State} (h : UnitInv s) : UnitInv s.tick where
  busy_counts := h.busy_counts
  others_rest := h.others_rest
  codes_agree := h.codes_agree
  done_answers := h.done_answers

theorem UnitInv.acceptEdge {s : State} (h : UnitInv s) : UnitInv s.acceptEdge where
  busy_counts _ := ⟨one_le_lat _ _ _, le_rfl⟩
  others_rest hp := absurd rfl hp
  codes_agree := h.codes_agree
  done_answers hp := by cases hp

theorem UnitInv.waitEdge {s : State} (h : UnitInv s) (hp : s.phase = .busy) (hl : 1 < s.latLeft) :
    UnitInv s.waitEdge where
  busy_counts _ := ⟨Nat.le_sub_one_of_lt hl, (Nat.sub_le _ _).trans (h.busy_counts hp).2⟩
  others_rest hp' := absurd hp hp'
  codes_agree := h.codes_agree
  done_answers := h.done_answers

theorem UnitInv.deliverEdge {s : State} (h : UnitInv s) (hp : s.phase = .done) : UnitInv s.deliverEdge where
  busy_counts hp' := by cases hp'
  others_rest _ := h.others_rest (by simp [hp])
  codes_agree := h.codes_agree
  done_answers hp' := by cases hp'

/-- After the BUSY-to-DONE edge, from any state: `present` writes all that the invariant speaks of. -/
theorem UnitInv.present (s : State) : UnitInv (s.present (execWord s.capOp s.capA s.capB)) where
  busy_counts h := by cases h
  others_rest _ := rfl
  codes_agree := by
    obtain ⟨r, hr⟩ := execWord_eq_respond s.capOp s.capA s.capB
    rw [hr]
    exact respond_codes_agree r
  done_answers _ := rfl

/-- Settles O19: each kind of edge keeps the invariant. -/
theorem everyStepKeepsTheUnitInvariant : Obligations.EveryStepKeepsTheUnitInvariant := by
  intro s t hs h
  rcases step_event_cases h with ⟨-, rfl⟩ | ⟨-, rfl⟩ | ⟨-, rfl⟩ | ⟨hd, rfl⟩ | ⟨hp, hl, rfl⟩ | ⟨-, rfl⟩
  · exact UnitInv.resetEdge s
  · exact hs.acceptEdge
  · exact UnitInv.present s.tick
  · exact hs.deliverEdge (s.delivers_iff.1 hd).1
  · exact hs.waitEdge hp hl
  · exact hs.tick

end Sys2Proof.Machine
end

section
/-! PROOFS. Runs of several edges: the ports move up by one at each edge, and a BUSY unit waits until its count is used up
(R219, R220). -/

namespace Sys2Proof.Machine

theorem State.pinsAfter_zero (s : State) : s.pinsAfter 0 = s.pins := by
  unfold State.pinsAfter State.pins
  cases s.inputs <;> rfl

theorem step_pinsAfter {s t : State} (h : step s = .next t) (k : Nat) : t.pinsAfter k = s.pinsAfter (k + 1) := by
  have hports : t.inputs = s.inputs.tail ∧ t.edges = s.edges + 1 := by
    rcases step_event_cases h with ⟨-, rfl⟩ | ⟨-, rfl⟩ | ⟨-, rfl⟩ | ⟨-, rfl⟩ | ⟨-, -, rfl⟩ | ⟨-, rfl⟩
    all_goals exact ⟨rfl, rfl⟩
  obtain ⟨hin, hed⟩ := hports
  simp only [State.pinsAfter, hin, hed, List.getElem?_tail, Nat.add_right_comm s.edges 1 k, Nat.add_assoc]

theorem run_succ_of_step {s t : State} (h : step s = .next t) (k : Nat) :
    Host.Core.run Sys2Proof.core (k + 1) s = Host.Core.run Sys2Proof.core k t := by
  have hcore : Sys2Proof.core.step s = .next t := h
  simp only [Host.Core.run, hcore]

/-- A run of one edge more, at its end. -/
theorem run_succ_of_run {s t u : State} {k : Nat} (h : Host.Core.run Sys2Proof.core k s = .next t)
    (hu : step t = .next u) : Host.Core.run Sys2Proof.core (k + 1) s = .next u := by
  induction k generalizing s with
  | zero =>
    injection h with h
    subst h
    exact run_succ_of_step hu 0
  | succ k ih =>
    obtain ⟨s', hs⟩ := everyEdgeHasANextState s
    rw [run_succ_of_step hs] at h ⊢
    exact ih h

theorem run_pins {s t : State} {k : Nat} (h : Host.Core.run Sys2Proof.core k s = .next t) : t.pins = s.pinsAfter k := by
  induction k generalizing s with
  | zero =>
    injection h with h
    rw [← h, State.pinsAfter_zero]
  | succ k ih =>
    obtain ⟨s', hs⟩ := everyEdgeHasANextState s
    rw [run_succ_of_step hs] at h
    rw [ih h, step_pinsAfter hs]

/-- While its count lasts and no edge resets it, a BUSY unit stays BUSY with its request, and the count falls by one at
each edge. -/
theorem run_busy {s : State} (hp : s.phase = .busy) {k : Nat} (hk : k < s.latLeft)
    (hr : ∀ j < k, (s.pinsAfter j).rst = false) :
    ∃ t : State, Host.Core.run Sys2Proof.core k s = .next t ∧ t.phase = .busy ∧ t.captured = s.captured ∧
      t.latLeft + k = s.latLeft := by
  induction k with
  | zero => exact ⟨s, rfl, hp, rfl, rfl⟩
  | succ k ih =>
    obtain ⟨t, hrun, htp, htc, htl⟩ := ih (by omega) fun j hj => hr j (by omega)
    have hrst : t.pins.rst = false := run_pins hrun ▸ hr k k.lt_succ_self
    have hstep : step t = .next t.waitEdge := step_of_wait hrst htp (by omega)
    exact ⟨t.waitEdge, run_succ_of_run hrun hstep, htp, htc, by rw [State.waitEdge_latLeft]; omega⟩

/-- When no edge resets it, a BUSY unit whose count is `k + 1` is in DONE with Exec of its request after `k + 1` edges. -/
theorem run_busy_to_done {s : State} (hp : s.phase = .busy) {k : Nat} (hk : s.latLeft = k + 1)
    (hr : ∀ j ≤ k, (s.pinsAfter j).rst = false) :
    ∃ t : State, Host.Core.run Sys2Proof.core (k + 1) s = .next t ∧ t.phase = .done ∧ t.captured = s.captured ∧
      t.rspRegs = execWord s.captured.op s.captured.a s.captured.b := by
  obtain ⟨t, hrun, htp, htc, htl⟩ := run_busy hp (by omega : k < s.latLeft) fun j hj => hr j hj.le
  have hc : t.completes = true := t.completes_iff.2 ⟨htp, run_pins hrun ▸ hr k le_rfl, by omega⟩
  have hstep := step_of_completes hc
  exact ⟨_, run_succ_of_run hrun hstep, rfl, htc, htc ▸ rspRegs_of_completes hstep hc⟩

/-- Settles O16: acceptance makes the unit BUSY with count LAT; from there it waits (`run_busy`) and completes
(`run_busy_to_done`). -/
theorem acceptedRequestIsDoneAfterLat : Obligations.AcceptedRequestIsDoneAfterLat := by
  intro s ha q lat hr
  have hstep : step s = .next s.acceptEdge := step_of_accepts ha
  have hr' : ∀ j < lat, (s.acceptEdge.pinsAfter j).rst = false := fun j hj => by
    rw [step_pinsAfter hstep]
    exact hr (j + 1) (by omega) hj
  refine ⟨one_le_lat _ _ _, fun k hk1 hk => ?_, ?_⟩
  · obtain ⟨k, rfl⟩ := Nat.exists_eq_add_of_le' hk1
    obtain ⟨u, hrun, hup, huc, -⟩ := run_busy (s := s.acceptEdge) rfl hk fun j hj => hr' j (hj.trans hk)
    exact ⟨u, (run_succ_of_step hstep k).trans hrun, hup, huc⟩
  · obtain ⟨t, hrun, hdone⟩ := run_busy_to_done (s := s.acceptEdge) rfl rfl fun j hj => hr' j (Nat.lt_succ_of_le hj)
    exact ⟨t, (run_succ_of_step hstep lat).trans hrun, hdone⟩

end Sys2Proof.Machine
end

section
/-! PROOFS. Traces (R46, R212): what each event is, what the unit holds before and after it, and that responses answer
requests in order. -/

namespace Sys2Proof.Machine

theorem State.inFlight_of_idle {s : State} (h : s.phase = .idle) : s.inFlight = none := if_pos h

theorem State.inFlight_of_not_idle {s : State} (h : s.phase ≠ .idle) : s.inFlight = some s.captured := if_neg h

theorem State.inFlight_congr {s t : State} (hp : t.phase = s.phase) (hc : t.captured = s.captured) :
    t.inFlight = s.inFlight := by
  simp only [State.inFlight, hp, hc]

/-- Everything the event of the coming edge can be, with the condition that makes it so. -/
theorem State.event_cases (s : State) :
    (s.pins.rst = true ∧ s.event = .reset) ∨
    (s.accepts = true ∧ s.event = .accepted s.portRequest) ∨
    (s.completes = true ∧ s.event = .completed) ∨
    (s.delivers = true ∧ s.event = .delivered s.rspRegs) ∨
    (s.pins.rst = false ∧ s.accepts = false ∧ s.completes = false ∧ s.delivers = false ∧ s.event = .quiet) := by
  unfold State.event
  split_ifs with hr ha hc hd
  · exact .inl ⟨hr, rfl⟩
  · exact .inr (.inl ⟨ha, rfl⟩)
  · exact .inr (.inr (.inl ⟨hc, rfl⟩))
  · exact .inr (.inr (.inr (.inl ⟨hd, rfl⟩)))
  · exact .inr (.inr (.inr (.inr (by simp [hr, ha, hc, hd]))))

/-- At an edge without an event the unit holds what it held. -/
theorem inFlight_of_no_event {s t : State} (h : step s = .next t) (hr : s.pins.rst = false) (ha : s.accepts = false)
    (hc : s.completes = false) (hd : s.delivers = false) : t.inFlight = s.inFlight := by
  obtain ⟨-, -, -, -, hkeep⟩ := phaseChangesOnlyAtItsEdges s t h
  exact State.inFlight_congr (hkeep ha hc hd hr).1 (captured_of_not_accepts h ha hr)

/-- In DONE the response registers hold Exec of the transaction in flight (R30). -/
theorem UnitInv.rspRegs_eq_execWord {s : State} (hs : UnitInv s) (hp : s.phase = .done) :
    ∃ q, s.inFlight = some q ∧ s.rspRegs = execWord q.op q.a q.b :=
  ⟨s.captured, State.inFlight_of_not_idle (by simp [hp]), hs.done_answers hp⟩

/-- One edge of rule R46: its event is allowed by what the unit holds before it, and leads to what it holds after it. -/
theorem UnitInv.answersInOrder_cons {s t : State} (hs : UnitInv s) (h : step s = .next t) {es : List Event}
    (hes : answersInOrder t.inFlight es) : answersInOrder s.inFlight (s.event :: es) := by
  rcases s.event_cases with ⟨hr, he⟩ | ⟨ha, he⟩ | ⟨hc, he⟩ | ⟨hd, he⟩ | ⟨hr, ha, hc, hd, he⟩ <;> rw [he]
  · obtain rfl := eq_of_step h (step_of_rst hr)
    exact hes
  · obtain rfl := eq_of_step h (step_of_accepts ha)
    exact ⟨State.inFlight_of_idle (s.accepts_iff.1 ha).1, hes⟩
  · obtain rfl := eq_of_step h (step_of_completes hc)
    have hheld : s.inFlight = some s.captured := State.inFlight_of_not_idle (by simp [(s.completes_iff.1 hc).1])
    rw [hheld]
    exact ⟨Option.some_ne_none _, hes⟩
  · obtain rfl := eq_of_step h (step_of_delivers hd)
    exact ⟨hs.rspRegs_eq_execWord (s.delivers_iff.1 hd).1, hes⟩
  · rw [← inFlight_of_no_event h hr ha hc hd]
    exact hes

theorem portTrace_succ_of_step {s t : State} (h : step s = .next t) (k : Nat) :
    portTrace (k + 1) s = s.event :: portTrace k t := by
  simp only [portTrace, h]

/-- Settles O18, by induction on the number of edges: each edge keeps to the rule (`UnitInv.answersInOrder_cons`) and keeps
the invariant (`everyStepKeepsTheUnitInvariant`). -/
theorem responsesAnswerRequestsInOrder : Obligations.ResponsesAnswerRequestsInOrder := by
  intro s k hs
  induction k generalizing s with
  | zero => exact trivial
  | succ k ih =>
    obtain ⟨t, h⟩ := everyEdgeHasANextState s
    rw [portTrace_succ_of_step h]
    exact hs.answersInOrder_cons h (ih t (everyStepKeepsTheUnitInvariant s t hs h))

end Sys2Proof.Machine
end

section
/-! PROOFS. Decoding (R61, R63, R64): a word is its FAM and FN, the assigned words are the commands' own words, and what
`decode` can answer, said once in `decode_cases`. -/

namespace Sys2Proof

theorem commandFam_toNat (op : Command) : (commandFam op).toNat = op.toNat / 16 := by
  have := op.isLt
  simp only [commandFam, BitVec.extractLsb'_toNat, Nat.shiftRight_eq_div_pow]
  omega

theorem commandFn_toNat (op : Command) : (commandFn op).toNat = op.toNat % 16 := by
  simp [commandFn]

/-- FAM and FN are the whole word (R61). -/
theorem eq_of_fam_fn {op op' : Command} (hfam : (commandFam op).toNat = (commandFam op').toNat)
    (hfn : (commandFn op).toNat = (commandFn op').toNat) : op = op' := by
  rw [commandFam_toNat, commandFam_toNat] at hfam
  rw [commandFn_toNat, commandFn_toNat] at hfn
  exact BitVec.eq_of_toNat_eq (by omega)

theorem assigned_iff_fn_lt_familySize (op : Command) :
    Command.assigned op = true ↔ (commandFn op).toNat < familySize (commandFam op).toNat := by
  rw [commandFam_toNat, commandFn_toNat, Command.assigned, decide_eq_true_iff]

/-- The per-instruction family `Laws.Assigned`, gathered. -/
theorem Laws.Assigned.statement : ∀ i : Instr, Laws.Assigned.Statement i
  | .abs => abs | .floor => floor | .ceil => ceil | .frac => frac
  | .div => div | .mul => mul
  | .msb => msb | .ispow2 => ispow2 | .nextpow2 => nextpow2
  | .log2 => log2 | .ln => ln
  | .unit => unit | .e => e | .pi => pi
  | .muldiv => muldiv | .sqrt => sqrt | .exp => exp | .exp2 => exp2

theorem wellFormed_eq_true (i : Instr) : i.wellFormed = true := (Laws.Assigned.statement i).1

theorem assigned_encode (i : Instr) : Command.assigned (encode i) = true := (Laws.Assigned.statement i).2.1

theorem decode_encode (i : Instr) : decode (encode i) = .ok i := by
  cases i <;> rfl

/-- Every function of every family belongs to a command: the rows of R63, family by family. -/
theorem exists_encode_of_lt_familySize {fam fn : Nat} (h : fn < familySize fam) :
    ∃ i, fam = (commandFam (encode i)).toNat ∧ fn = (commandFn (encode i)).toNat := by
  unfold familySize at h
  split at h <;> interval_cases fn
  · exact ⟨.abs, rfl, rfl⟩
  · exact ⟨.floor, rfl, rfl⟩
  · exact ⟨.ceil, rfl, rfl⟩
  · exact ⟨.frac, rfl, rfl⟩
  · exact ⟨.div, rfl, rfl⟩
  · exact ⟨.mul, rfl, rfl⟩
  · exact ⟨.msb, rfl, rfl⟩
  · exact ⟨.ispow2, rfl, rfl⟩
  · exact ⟨.nextpow2, rfl, rfl⟩
  · exact ⟨.log2, rfl, rfl⟩
  · exact ⟨.ln, rfl, rfl⟩
  · exact ⟨.unit, rfl, rfl⟩
  · exact ⟨.e, rfl, rfl⟩
  · exact ⟨.pi, rfl, rfl⟩
  · exact ⟨.muldiv, rfl, rfl⟩
  · exact ⟨.sqrt, rfl, rfl⟩
  · exact ⟨.exp, rfl, rfl⟩
  · exact ⟨.exp2, rfl, rfl⟩

/-- The assigned words are the commands' own words. -/
theorem assigned_iff_exists_encode (op : Command) : Command.assigned op = true ↔ ∃ i, op = encode i := by
  constructor
  · intro h
    obtain ⟨i, hfam, hfn⟩ := exists_encode_of_lt_familySize ((assigned_iff_fn_lt_familySize op).1 h)
    exact ⟨i, eq_of_fam_fn hfam hfn⟩
  · rintro ⟨i, rfl⟩
    exact assigned_encode i

/-- Each row of `decode` but the last has its function inside its family. -/
theorem decode_of_not_assigned {op : Command} (h : Command.assigned op = false) :
    decode op = .error (.reservedOp op) := by
  have hfn : ¬ (commandFn op).toNat < familySize (commandFam op).toNat := by
    rw [← assigned_iff_fn_lt_familySize, h]
    exact Bool.false_ne_true
  unfold decode
  generalize (commandFam op).toNat = fam, (commandFn op).toNat = fn at hfn
  split
  case h_19 => rfl
  all_goals exact absurd (by decide) hfn

/-- Everything decoding can answer. -/
theorem decode_cases (op : Command) :
    (∃ i, op = encode i ∧ decode op = .ok i) ∨
    (Command.assigned op = false ∧ decode op = .error (.reservedOp op)) := by
  cases h : Command.assigned op with
  | true =>
    obtain ⟨i, rfl⟩ := (assigned_iff_exists_encode op).1 h
    exact .inl ⟨i, rfl, decode_encode i⟩
  | false => exact .inr ⟨rfl, decode_of_not_assigned h⟩

theorem eq_encode_of_decode {op : Command} {i : Instr} (h : decode op = .ok i) : op = encode i := by
  rcases decode_cases op with ⟨j, hop, hj⟩ | ⟨-, he⟩
  · rw [hop, Except.ok.inj (hj.symm.trans h)]
  · cases he.symm.trans h

theorem mem_allInstrs (i : Instr) : i ∈ Machine.allInstrs := by
  cases i <;> decide

/-- Settles O2: `decode` undoes `encode`, and the assigned words are the words of commands. -/
theorem decodeAndEncodeAgree : Obligations.DecodeAndEncodeAgree := by
  refine ⟨fun i => ⟨wellFormed_eq_true i, decode_encode i⟩, fun op i => eq_encode_of_decode, fun op => ?_,
    fun op => decode_of_not_assigned, by decide⟩
  rw [assigned_iff_exists_encode]
  constructor
  · rintro ⟨i, rfl⟩
    exact ⟨i, decode_encode i⟩
  · rintro ⟨i, h⟩
    exact ⟨i, eq_encode_of_decode h⟩

/-- Settles O1: the columns of each row are evaluated, and the 18 words listed are the words of all commands. -/
theorem commandTableIsDecodedRowByRow : Obligations.CommandTableIsDecodedRowByRow := by
  refine ⟨?_, ?_, ?_, ?_, ?_, ?_, ?_, ?_, ?_, ?_, ?_, ?_, ?_, ?_, ?_, ?_, ?_, ?_, fun op hop => ?_⟩
  case refine_19 =>
    rcases decode_cases op with ⟨i, rfl, -⟩ | ⟨-, he⟩
    · exact absurd (List.mem_map_of_mem (mem_allInstrs i)) hop
    · exact he
  all_goals exact ⟨rfl, rfl, rfl, rfl, rfl, rfl⟩

end Sys2Proof
end

section
/-! PROOFS. Exec of every command word (R62, R64, R69, R71): the reserved words, the signature-only commands, the operands a
command ignores, and the codes of an answer. -/

namespace Sys2Proof.Machine

theorem execWord_encode (i : Instr) (a b : Word) : execWord (encode i) a b = respond (outcome i a b) :=
  execWord_of_decode (decode_encode i) a b

theorem execWord_of_not_assigned {op : Command} (h : Command.assigned op = false) (a b : Word) :
    execWord op a b = { status := 3, cause := 11, result := 0 } :=
  execWord_of_reserved (decode_of_not_assigned h) a b

/-- 0x60 to 0x63 are the words of the commands that have no result. -/
theorem exists_encode_of_signature_only {op : Command} (h : 0x60 ≤ op.toNat ∧ op.toNat ≤ 0x63) :
    ∃ i, op = encode i ∧ resultKind i = .none := by
  have hop : op = 0x60 ∨ op = 0x61 ∨ op = 0x62 ∨ op = 0x63 := by bv_omega
  rcases hop with rfl | rfl | rfl | rfl
  · exact ⟨.muldiv, rfl, rfl⟩
  · exact ⟨.sqrt, rfl, rfl⟩
  · exact ⟨.exp, rfl, rfl⟩
  · exact ⟨.exp2, rfl, rfl⟩

theorem outcome_of_no_result {i : Instr} (h : resultKind i = .none) (a b : Word) :
    outcome i a b = .error .unimplemented := by
  cases i with
  | muldiv | sqrt | exp | exp2 => rfl
  | _ => cases h

/-- Settles O3: a computing value is the word of its command, 0x60 to 0x63 are the words of the commands without a result,
and no command's word lies in a reserved interval. -/
theorem execOfEveryCommandValue : Obligations.ExecOfEveryCommandValue := by
  refine ⟨fun i a b _ => execWord_encode i a b, fun op a b h => ?_, fun op a b h => ?_⟩
  · obtain ⟨i, rfl, hi⟩ := exists_encode_of_signature_only h
    rw [execWord_encode, outcome_of_no_result hi]
    rfl
  · rcases decode_cases op with ⟨i, rfl, -⟩ | ⟨hop, -⟩
    · refine absurd h ?_
      cases i <;> decide
    · exact execWord_of_not_assigned hop a b

/-- Settles O5: the BUSY-to-DONE edge presents Exec of the captured word, which is reserved. -/
theorem stepAnswersReservedCommands : Obligations.StepAnswersReservedCommands := by
  intro s hr hp hl hop
  rw [step_of_complete hr hp hl, execWord_of_not_assigned hop]

theorem outcome_of_ignored_a {i : Instr} (h : operandA i = .ignored) (a a' b : Word) :
    outcome i a b = outcome i a' b := by
  cases i with
  | unit | e | pi | muldiv | sqrt | exp | exp2 => rfl
  | _ => cases h

theorem outcome_of_ignored_b {i : Instr} (h : operandB i = .ignored) (a b b' : Word) :
    outcome i a b = outcome i a b' := by
  cases i with
  | div | mul => cases h
  | _ => rfl

theorem operandB_ne_ignored_iff (i : Instr) : operandB i ≠ .ignored ↔ i = .div ∨ i = .mul := by
  cases i <;> decide

theorem operandA_eq_ignored_iff (i : Instr) :
    operandA i = .ignored ↔ i = .unit ∨ i = .e ∨ i = .pi ∨ resultKind i = .none := by
  cases i <;> decide

/-- Settles O24: the outcome changes neither with an ignored A nor with an ignored B, and the columns of R63 say which they
are. -/
theorem unreadOperandsAreIgnored : Obligations.UnreadOperandsAreIgnored := by
  refine ⟨fun i a a' b b' ha hb => ?_, operandB_ne_ignored_iff, operandA_eq_ignored_iff, fun a b =>
    ⟨execWord_encode .div a b, execWord_encode .mul a b⟩⟩
  have hA : outcome i a b = outcome i a' b := by
    rcases ha with ha | rfl
    · exact outcome_of_ignored_a ha a a' b
    · rfl
  have hB : outcome i a' b = outcome i a' b' := by
    rcases hb with hb | rfl
    · exact outcome_of_ignored_b hb a' b b'
    · rfl
  rw [execWord_encode, execWord_encode, hA, hB]

/-- Settles O25: every answer is `respond` of how the operation ended, with a value or with one of the 11 causes. -/
theorem causeDecidesStatusAndErrorsHaveNoResult : Obligations.CauseDecidesStatusAndErrorsHaveNoResult := by
  intro op a b
  obtain ⟨r, hr⟩ := execWord_eq_respond op a b
  rw [hr]
  cases r with
  | ok w => exact ⟨.inl ⟨rfl, rfl⟩, fun h => absurd rfl h⟩
  | error c =>
    refine ⟨?_, fun _ => rfl⟩
    cases c <;> decide

end Sys2Proof.Machine
end

section
/-! PROOFS. A whole transaction at the ports (R73, R216 to R219): the listed inputs run out edge by edge, and the trace of a
BUSY unit is quiet up to its completion. -/

namespace Sys2Proof.Machine

theorem State.pins_of_inputs {s : State} {p : PortIn} {ps : List PortIn} (h : s.inputs = p :: ps) : s.pins = p := by
  simp only [State.pins, h]

theorem State.pinsAfter_of_getElem? {s : State} {k : Nat} {p : PortIn} (h : s.inputs[k]? = some p) :
    s.pinsAfter k = p := by
  simp only [State.pinsAfter, h]

theorem step_inputs {s t : State} (h : step s = .next t) : t.inputs = s.inputs.tail := by
  rcases step_event_cases h with ⟨-, rfl⟩ | ⟨-, rfl⟩ | ⟨-, rfl⟩ | ⟨-, rfl⟩ | ⟨-, -, rfl⟩ | ⟨-, rfl⟩
  all_goals rfl

theorem run_inputs {s t : State} {k : Nat} (h : Host.Core.run Sys2Proof.core k s = .next t) :
    t.inputs = s.inputs.drop k := by
  induction k generalizing s with
  | zero =>
    injection h with h
    rw [h, List.drop_zero]
  | succ k ih =>
    obtain ⟨s', hs⟩ := everyEdgeHasANextState s
    rw [run_succ_of_step hs] at h
    rw [ih h, step_inputs hs, List.drop_tail]

/-- The trace of a run is continued where the run ends. -/
theorem portTrace_add_of_run {s t : State} {k : Nat} (h : Host.Core.run Sys2Proof.core k s = .next t) (n : Nat) :
    portTrace (k + n) s = portTrace k s ++ portTrace n t := by
  induction k generalizing s with
  | zero =>
    injection h with h
    rw [h, Nat.zero_add]
    rfl
  | succ k ih =>
    obtain ⟨s', hs⟩ := everyEdgeHasANextState s
    rw [run_succ_of_step hs] at h
    rw [Nat.add_right_comm, portTrace_succ_of_step hs, portTrace_succ_of_step hs, ih h, List.cons_append]

theorem State.event_of_accepts {s : State} (h : s.accepts = true) : s.event = .accepted s.portRequest := by
  obtain ⟨-, hr, -⟩ := s.accepts_iff.1 h
  simp [State.event, hr, h]

theorem State.event_of_completes {s : State} (h : s.completes = true) : s.event = .completed := by
  obtain ⟨hp, hr, -⟩ := s.completes_iff.1 h
  simp [State.event, State.accepts, State.reqReady, hp, hr, h]

theorem State.event_of_delivers {s : State} (h : s.delivers = true) : s.event = .delivered s.rspRegs := by
  obtain ⟨hp, hr, -⟩ := s.delivers_iff.1 h
  simp [State.event, State.accepts, State.reqReady, State.completes, hp, hr, h]

theorem State.event_of_wait {s : State} (hr : s.pins.rst = false) (hp : s.phase = .busy) (hl : 1 < s.latLeft) :
    s.event = .quiet := by
  simp [State.event, State.accepts, State.reqReady, State.completes, State.delivers, State.rspValid, hr, hp, hl.not_ge]

/-- When no edge resets it, a BUSY unit whose count is `k + 1` shows nothing for `k` edges and then completes. -/
theorem portTrace_busy_to_done {s : State} (hp : s.phase = .busy) {k : Nat} (hk : s.latLeft = k + 1)
    (hr : ∀ j ≤ k, (s.pinsAfter j).rst = false) :
    portTrace (k + 1) s = List.replicate k .quiet ++ [.completed] := by
  induction k generalizing s with
  | zero =>
    have hc : s.completes = true := s.completes_iff.2 ⟨hp, s.pinsAfter_zero ▸ hr 0 le_rfl, hk.le⟩
    rw [portTrace_succ_of_step (step_of_completes hc), State.event_of_completes hc]
    rfl
  | succ k ih =>
    have hrst : s.pins.rst = false := s.pinsAfter_zero ▸ hr 0 (k + 1).zero_le
    have hl : 1 < s.latLeft := by omega
    have hstep := step_of_wait hrst hp hl
    have htrace : portTrace (k + 1) s.waitEdge = List.replicate k .quiet ++ [.completed] := by
      refine ih hp (by rw [State.waitEdge_latLeft]; omega) fun j hj => ?_
      rw [step_pinsAfter hstep]
      exact hr (j + 1) (by omega)
    rw [portTrace_succ_of_step hstep, State.event_of_wait hrst hp hl, htrace]
    rfl

/-- A BUSY unit whose host waits for the response with `rsp_ready = 1` completes, delivers Exec of its request and is IDLE,
one edge after its count is used up. -/
theorem run_busy_to_delivery {s : State} (hp : s.phase = .busy) {k : Nat} (hk : s.latLeft = k + 1) {rest : List PortIn}
    (hin : s.inputs = List.replicate (k + 2) awaitPins ++ rest) :
    ∃ t : State, Host.Core.run Sys2Proof.core (k + 2) s = .next t ∧ t.phase = .idle ∧ t.inputs = rest ∧
      portTrace (k + 2) s = List.replicate k .quiet ++
        [.completed, .delivered (execWord s.captured.op s.captured.a s.captured.b)] := by
  have hr : ∀ j ≤ k, (s.pinsAfter j).rst = false := fun j hj => by
    have hpin : s.inputs[j]? = some awaitPins := by
      rw [hin, List.getElem?_append_left (by simp; omega), List.getElem?_replicate_of_lt (by omega)]
    rw [State.pinsAfter_of_getElem? hpin]
    rfl
  obtain ⟨t, hrun, htp, -, hregs⟩ := run_busy_to_done hp hk hr
  have htin : t.inputs = awaitPins :: rest := by
    rw [run_inputs hrun, hin, List.replicate_succ', List.append_assoc, List.drop_left' List.length_replicate]
    rfl
  have hd : t.delivers = true := by
    rw [t.delivers_iff, State.pins_of_inputs htin]
    exact ⟨htp, rfl, rfl⟩
  have hstep := step_of_delivers hd
  refine ⟨t.deliverEdge, run_succ_of_run hrun hstep, rfl, by rw [State.deliverEdge_inputs, htin]; rfl, ?_⟩
  rw [portTrace_add_of_run hrun 1, portTrace_busy_to_done hp hk hr, portTrace_succ_of_step hstep,
    State.event_of_delivers hd, hregs, List.append_assoc]
  rfl

/-- Settles O17: the first edge accepts the request, which makes the unit BUSY with count LAT, and `run_busy_to_delivery`
gives the rest. -/
theorem hostTransactionDeliversExec : Obligations.HostTransactionDeliversExec := by
  intro s q rest hidle hin
  have hpins : s.pins = presentPins q := State.pins_of_inputs hin
  have ha : s.accepts = true := by
    rw [s.accepts_iff, hpins]
    exact ⟨hidle, rfl, rfl⟩
  have hq : s.portRequest = q := by
    rw [State.portRequest, hpins]
    rfl
  have hlat : s.acceptEdge.latLeft = Config.lat q.op q.a q.b := by
    rw [State.acceptEdge_latLeft, hpins]
    rfl
  have hin' : s.acceptEdge.inputs = List.replicate (Config.lat q.op q.a q.b + 1) awaitPins ++ rest := by
    rw [State.acceptEdge_inputs, hin]
    rfl
  obtain ⟨t, hrun, htp, htin, htrace⟩ := run_busy_to_delivery (s := s.acceptEdge) rfl hlat hin'
  have hstep := step_of_accepts ha
  refine ⟨t, (run_succ_of_step hstep _).trans hrun, htp, htin, ?_⟩
  rw [State.acceptEdge_captured, hq] at htrace
  rw [portTrace_succ_of_step hstep, State.event_of_accepts ha, hq, Config.lat, htrace]
  simp

end Sys2Proof.Machine
end

section
/-! PROOFS. The assembler and host scripts (R72, R73): the word of each operand form, the three shapes of a transaction that
assembles, and one script line. -/

namespace Sys2Proof.Machine

theorem uval_enc {v : Int} (h : InU v) : (uval (enc v) : Int) = v := by
  obtain ⟨h0, h1⟩ := h
  rw [uval, enc, BitVec.toNat_ofInt, Int.toNat_of_nonneg (Int.emod_nonneg _ (by norm_num))]
  exact Int.emod_eq_of_lt h0 (by norm_num at h1 ⊢; omega)

/-! How many operands a command is written with (R72). -/

theorem operands_of_arity_one {i : Instr} (h : arity i = 1) : operandA i ≠ .ignored ∧ operandB i = .ignored := by
  revert h
  cases i <;> decide

theorem operands_of_arity_two {i : Instr} (h : arity i = 2) : operandA i ≠ .ignored ∧ operandB i ≠ .ignored := by
  revert h
  cases i <;> decide

theorem arity_le_two (i : Instr) : arity i ≤ 2 := by
  unfold arity
  split_ifs <;> decide

/-- Everything a transaction that assembles can be: no operand, one on A, or two on A and B, and zero words elsewhere. -/
theorem assemble_op_cases {vars : HostVars} {i : Instr} {args : List Operand} {q : Request}
    (h : assemble vars (.op i args) = some q) :
    (args = [] ∧ arity i = 0 ∧ q = ⟨encode i, 0, 0⟩) ∨
    (∃ x a, args = [x] ∧ arity i = 1 ∧ operandWord vars x = some a ∧ q = ⟨encode i, a, 0⟩) ∨
    (∃ x y a b, args = [x, y] ∧ arity i = 2 ∧ operandWord vars x = some a ∧ operandWord vars y = some b ∧
      q = ⟨encode i, a, b⟩) := by
  match args with
  | [] =>
    simp only [assemble, Option.ite_none_right_eq_some, Option.some.injEq] at h
    exact .inl ⟨rfl, h.1, h.2.symm⟩
  | [x] =>
    simp only [assemble, Option.ite_none_right_eq_some, Option.map_eq_some_iff] at h
    obtain ⟨hi, a, ha, rfl⟩ := h
    exact .inr (.inl ⟨x, a, rfl, hi, ha, rfl⟩)
  | [x, y] =>
    simp only [assemble, Option.ite_none_right_eq_some, Option.map_eq_some_iff, Option.bind_eq_some_iff] at h
    obtain ⟨hi, a, ha, b, hb, rfl⟩ := h
    exact .inr (.inr ⟨x, y, a, b, rfl, hi, ha, hb, rfl⟩)
  | _ :: _ :: _ :: _ => cases h

/-- Operands that all have a word assemble exactly when there are as many as the command reads. -/
theorem assemble_isSome_iff {vars : HostVars} {i : Instr} {args : List Operand}
    (hwords : ∀ x ∈ args, ∃ w, operandWord vars x = some w) :
    (assemble vars (.op i args)).isSome ↔ arity i = args.length := by
  match args with
  | [] => simp [assemble]
  | [x] =>
    obtain ⟨a, ha⟩ := hwords x (by simp)
    simp [assemble, ha]
  | [x, y] =>
    obtain ⟨a, ha⟩ := hwords x (by simp)
    obtain ⟨b, hb⟩ := hwords y (by simp)
    simp [assemble, ha, hb]
  | x :: y :: z :: rest =>
    have := arity_le_two i
    simp only [assemble, List.length_cons, Option.isSome_none, Bool.false_eq_true, false_iff]
    omega

theorem inS_constValue (c : NamedConst) : InS (constValue c) := by
  cases c <;> decide

theorem operandWord_named (c : NamedConst) (vars : HostVars) :
    ∃ w, operandWord vars (.named c) = some w ∧ sval w = constValue c :=
  ⟨_, rfl, sval_enc (inS_constValue c)⟩

theorem operandWord_hostVar {vars : HostVars} {n : Nat} {r : Response} (h : vars.lookup n = some r) :
    operandWord vars (.hostVar n) = some r.result := by
  simp only [operandWord, h, Option.map_some]

/-- Settles O56: `assemble_op_cases` gives the words on the ports, and each operand form reads back as its value. -/
theorem assemblerZeroesUnusedOperands : Obligations.AssemblerZeroesUnusedOperands := by
  refine ⟨fun vars i args q h => ?_, fun vars i x q h => ?_, fun vars i x y q h => ?_,
    fun _ _ h => ⟨_, rfl, sval_enc h⟩, fun _ _ h => ⟨_, rfl, uval_enc h⟩, fun _ _ h => ⟨_, rfl, uval_zext256 h⟩, ?_,
    fun _ _ _ h => operandWord_hostVar h, fun vars i args h => ?_, fun _ _ => rfl⟩
  · rcases assemble_op_cases h with ⟨-, -, rfl⟩ | ⟨x, a, -, hi, -, rfl⟩ | ⟨x, y, a, b, -, hi, -, -, rfl⟩
    · exact ⟨rfl, fun _ => rfl, fun _ => rfl⟩
    · exact ⟨rfl, fun hA => absurd hA (operands_of_arity_one hi).1, fun _ => rfl⟩
    · obtain ⟨hA, hB⟩ := operands_of_arity_two hi
      exact ⟨rfl, fun h => absurd h hA, fun h => absurd h hB⟩
  · rcases assemble_op_cases h with ⟨hargs, -⟩ | ⟨x, a, hargs, hi, ha, rfl⟩ | ⟨x, y, a, b, hargs, -⟩
    · cases hargs
    · cases hargs
      exact ⟨(operands_of_arity_one hi).1, (operands_of_arity_one hi).2, ha⟩
    · cases hargs
  · rcases assemble_op_cases h with ⟨hargs, -⟩ | ⟨x, a, hargs, -⟩ | ⟨x, y, a, b, hargs, hi, ha, hb, rfl⟩
    · cases hargs
    · cases hargs
    · cases hargs
      exact ⟨(operandB_ne_ignored_iff i).1 (operands_of_arity_two hi).2, ha, hb⟩
  · exact ⟨operandWord_named .unit, operandWord_named .halfUnit, operandWord_named .twiceUnit, operandWord_named .ln2,
      operandWord_named .max, operandWord_named .min, operandWord_named .maxWhole, operandWord_named .minWhole⟩
  · refine (assemble_isSome_iff fun x hx => ?_).trans eq_comm
    obtain ⟨v, rfl⟩ := h x hx
    exact ⟨_, rfl⟩

theorem runLine_of_no_guard {vars : HostVars} {l : ScriptLine} (h : l.guard = none) :
    runLine vars l = issueLine vars l := by
  simp only [runLine, h]

theorem runLine_of_guard {vars : HostVars} {l : ScriptLine} {k : Nat} {r : Response} (h : l.guard = some k)
    (hk : vars.lookup k = some r) :
    runLine vars l = if r.status = 0 then issueLine vars l else some vars := by
  simp only [runLine, h, hk]
  rfl

/-- Settles O57: an unguarded line is issued, and a guarded one only when the guard's status is OK. -/
theorem scriptLineStoresExecUnderItsGuard : Obligations.ScriptLineStoresExecUnderItsGuard := by
  refine ⟨fun vars l q hg hq => ?_, fun vars l k r hg hk => ⟨fun hr => ?_, fun hr => ?_⟩⟩
  · rw [runLine_of_no_guard hg, issueLine, hq, Option.map_some]
  · rw [runLine_of_guard hg hk, if_neg hr]
  · rw [runLine_of_guard hg hk, if_pos hr, runLine_of_no_guard rfl]
    rfl

end Sys2Proof.Machine
end

section
/-! PROOFS. Family 1 (R81 to R85): what ABS gives, FLOOR and CEIL as the one multiple of UNIT next to the operand, FRAC as
the rest of the truncation toward zero, and how a signed result reaches the response. -/

namespace Sys2Proof.Machine

theorem exec_of_outcome_error {i : Instr} {s : State} {c : Cause} (h : outcome i s.capA s.capB = .error c) :
    exec i s = .next (s.present { status := c.status.code, cause := c.code, result := 0 }) := by
  rw [exec_eq_present, h, respond_error]

/-- A command that ends with a signed value in range answers OK with a word that reads back as the value (R16, R70). -/
theorem exec_of_outcome_enc {i : Instr} {s : State} {v : Int} (h : outcome i s.capA s.capB = .ok (enc v)) (hv : InS v) :
    ∃ w, exec i s = .next (s.present { status := 0, cause := 0, result := w }) ∧ sval w = v :=
  ⟨enc v, by rw [exec_eq_present, h, respond_ok], sval_enc hv⟩

theorem fAbs_min : fAbs MIN_59x18 = .error .absMin := if_pos rfl

theorem fAbs_of_ne_min {x : Int} (h : x ≠ MIN_59x18) : fAbs x = .ok |x| := by
  rcases lt_or_ge x 0 with hx | hx
  · simp [fAbs, h, hx, abs_of_neg hx]
  · simp [fAbs, h, hx.not_gt, abs_of_nonneg hx]

/-- Settles O31: ABS is the magnitude on integers, and the magnitude of an operand other than MIN_59x18 is in range. -/
theorem absGivesTheMagnitude : Obligations.AbsGivesTheMagnitude := by
  refine ⟨fun s h => ?_, fun s h => ?_, rfl⟩
  · exact exec_of_outcome_error (i := .abs) (onSigned_of_error (h ▸ fAbs_min))
  · have hf := fAbs_of_ne_min h
    exact exec_of_outcome_enc (i := .abs) (onSigned_of_ok hf) (inS_of_fAbs_ok (inS_sval _) hf)

/-- Settles O32: `fFloor_of_ge` at the captured operand, read back from the result word. -/
theorem floorGivesTheWholeValueBelow : Obligations.FloorGivesTheWholeValueBelow := by
  refine ⟨fun s h => ?_, fun s h => ?_, rfl⟩
  · exact exec_of_outcome_error (i := .floor) (onSigned_of_error (fFloor_of_lt h))
  · obtain ⟨v, hf, hv⟩ := fFloor_of_ge h
    obtain ⟨w, hexec, rfl⟩ := exec_of_outcome_enc (i := .floor) (onSigned_of_ok hf) (inS_of_fFloor_ok (inS_sval _) hf)
    exact ⟨w, hexec, hv⟩

/-- Settles O33: `fCeil_of_le` at the captured operand, read back from the result word. -/
theorem ceilGivesTheWholeValueAbove : Obligations.CeilGivesTheWholeValueAbove := by
  refine ⟨fun s h => ?_, fun s h => ?_, rfl⟩
  · exact exec_of_outcome_error (i := .ceil) (onSigned_of_error (fCeil_of_gt h))
  · obtain ⟨v, hf, hv⟩ := fCeil_of_le h
    obtain ⟨w, hexec, rfl⟩ := exec_of_outcome_enc (i := .ceil) (onSigned_of_ok hf) (inS_of_fCeil_ok (inS_sval _) hf)
    exact ⟨w, hexec, hv⟩

/-- Settles O34: FRAC is the remainder of the truncating division by UNIT, which is always in range. -/
theorem fracGivesTheTruncatingRemainder : Obligations.FracGivesTheTruncatingRemainder := by
  refine ⟨fun s => ?_, rfl⟩
  have hf : fFrac (sval s.capA) = .ok (trem (sval s.capA) UNIT) := rfl
  obtain ⟨w, hexec, hw⟩ := exec_of_outcome_enc (i := .frac) (onSigned_of_ok hf) (inS_of_fFrac_ok hf)
  refine ⟨w, hexec, ?_⟩
  rw [hw]
  exact ⟨unit_dvd_sub_trem _, abs_lt.mpr (trem_unit_lt _), trem_nonneg UNIT, trem_nonpos UNIT⟩

theorem eq_of_unit_dvd_of_abs_sub_lt {v w : Int} (hv : UNIT ∣ v) (hw : UNIT ∣ w) (h : |v - w| < UNIT) : v = w :=
  sub_eq_zero.mp (Int.eq_zero_of_abs_lt_dvd (hv.sub hw) h)

/-- FLOOR's value is the only multiple of UNIT at most x and less than one UNIT below it. -/
theorem fFloor_ok_iff {x f : Int} :
    fFloor x = .ok f ↔ MIN_WHOLE_59x18 ≤ x ∧ UNIT ∣ f ∧ f ≤ x ∧ x < f + UNIT := by
  rcases lt_or_ge x MIN_WHOLE_59x18 with hlt | hge
  · simp [fFloor_of_lt hlt, hlt.not_ge]
  · obtain ⟨w, hw, hdvd, hle, hlt⟩ := fFloor_of_ge hge
    rw [hw, Except.ok.injEq]
    constructor
    · rintro rfl
      exact ⟨hge, hdvd, hle, hlt⟩
    · rintro ⟨-, hdvd', hle', hlt'⟩
      exact eq_of_unit_dvd_of_abs_sub_lt hdvd hdvd' (abs_lt.mpr ⟨by omega, by omega⟩)

/-- CEIL's value is the only multiple of UNIT at least x and less than one UNIT above it. -/
theorem fCeil_ok_iff {x c : Int} :
    fCeil x = .ok c ↔ x ≤ MAX_WHOLE_59x18 ∧ UNIT ∣ c ∧ x ≤ c ∧ c < x + UNIT := by
  rcases lt_or_ge MAX_WHOLE_59x18 x with hgt | hle
  · simp [fCeil_of_gt hgt, hgt.not_ge]
  · obtain ⟨w, hw, hdvd, hge, hlt⟩ := fCeil_of_le hle
    rw [hw, Except.ok.injEq]
    constructor
    · rintro rfl
      exact ⟨hle, hdvd, hge, hlt⟩
    · rintro ⟨-, hdvd', hge', hlt'⟩
      exact eq_of_unit_dvd_of_abs_sub_lt hdvd hdvd' (abs_lt.mpr ⟨by omega, by omega⟩)

/-- A whole value passes both bound checks and is its own floor and its own ceiling (R85). -/
theorem fFloor_and_fCeil_of_whole {w : Int} (hw : UNIT ∣ w) (h : InS w) : fFloor w = .ok w ∧ fCeil w = .ok w := by
  obtain ⟨hmin, hmax⟩ := whole_bounds_of_inS hw h
  have hlt : w < w + UNIT := lt_add_of_pos_right w unit_pos
  exact ⟨fFloor_ok_iff.mpr ⟨hmin, hw, le_rfl, hlt⟩, fCeil_ok_iff.mpr ⟨hmax, hw, le_rfl, hlt⟩⟩

theorem abs_trem_le_abs (a b : Int) : |trem a b| ≤ |a| := by
  rw [trem_eq_tmod, Int.abs_eq_natAbs, Int.abs_eq_natAbs, Int.natAbs_tmod]
  exact_mod_cast Nat.mod_le _ _

theorem trem_unit_eq_zero_iff {x : Int} : trem x UNIT = 0 ↔ UNIT ∣ x := by
  rw [trem_eq_tmod, Int.dvd_iff_tmod_eq_zero]

theorem frac_add_floor_of_nonneg {x f : Int} (hf : fFloor x = .ok f) (hx : 0 ≤ x) : trem x UNIT + f = x := by
  obtain ⟨-, hdvd, hle, hlt⟩ := fFloor_ok_iff.mp hf
  have hr := trem_nonneg UNIT hx
  have hr' := trem_unit_lt x
  have : f = x - trem x UNIT :=
    eq_of_unit_dvd_of_abs_sub_lt hdvd (unit_dvd_sub_trem x) (abs_lt.mpr ⟨by omega, by omega⟩)
  omega

/-- Below zero the truncation is the ceiling, one UNIT above the floor. -/
theorem frac_add_floor_of_neg {x f : Int} (hf : fFloor x = .ok f) (hx : x < 0) (hw : ¬ UNIT ∣ x) :
    trem x UNIT + f = x - UNIT := by
  obtain ⟨-, hdvd, hle, hlt⟩ := fFloor_ok_iff.mp hf
  have hr := trem_nonpos UNIT hx.le
  have hr' := trem_unit_lt x
  have hr0 : trem x UNIT ≠ 0 := mt trem_unit_eq_zero_iff.mp hw
  have : f + UNIT = x - trem x UNIT :=
    eq_of_unit_dvd_of_abs_sub_lt (hdvd.add dvd_rfl) (unit_dvd_sub_trem x) (abs_lt.mpr ⟨by omega, by omega⟩)
  omega

theorem frac_add_floor_of_whole {x f : Int} (hf : fFloor x = .ok f) (hw : UNIT ∣ x) : trem x UNIT + f = x := by
  obtain ⟨-, hdvd, hle, hlt⟩ := fFloor_ok_iff.mp hf
  have : f = x := eq_of_unit_dvd_of_abs_sub_lt hdvd hw (abs_lt.mpr ⟨by omega, by omega⟩)
  rw [trem_unit_eq_zero_iff.mpr hw, this, zero_add]

/-- Removing the remainder moves x toward zero, by less than one UNIT and not past it. -/
theorem sub_trem_truncates (x : Int) :
    |x - trem x UNIT| ≤ |x| ∧ |x| < |x - trem x UNIT| + UNIT ∧ 0 ≤ (x - trem x UNIT) * x := by
  have hlt := trem_unit_lt x
  have hle := abs_trem_le_abs x UNIT
  rcases le_total 0 x with hx | hx
  · have hr := trem_nonneg UNIT hx
    rw [abs_of_nonneg hr, abs_of_nonneg hx] at hle
    have ht : 0 ≤ x - trem x UNIT := by omega
    rw [abs_of_nonneg ht, abs_of_nonneg hx]
    exact ⟨by omega, by omega, mul_nonneg ht hx⟩
  · have hr := trem_nonpos UNIT hx
    rw [abs_of_nonpos hr, abs_of_nonpos hx] at hle
    have ht : x - trem x UNIT ≤ 0 := by omega
    rw [abs_of_nonpos ht, abs_of_nonpos hx]
    exact ⟨by omega, by omega, mul_nonneg_of_nonpos_of_nonpos ht hx⟩

/-- Settles O35: the sums by `fFloor_ok_iff`, the truncation by the remainder's sign and size, and the fixed points because
every floor and every ceiling is a whole value in range. -/
theorem floorCeilFracLaws : Obligations.FloorCeilFracLaws := by
  refine ⟨?_, ?_, ?_, ?_, fun x f hx hf => ?_, fun x c hx hc => ?_⟩
  · rintro x f _ hf ⟨⟩ hx
    exact frac_add_floor_of_nonneg hf hx
  · rintro x f _ hf ⟨⟩ hx hw
    exact frac_add_floor_of_neg hf hx hw
  · rintro x f _ hf ⟨⟩ - hw
    exact frac_add_floor_of_whole hf hw
  · rintro x _ ⟨⟩
    exact ⟨unit_dvd_sub_trem x, sub_trem_truncates x⟩
  · obtain ⟨-, hdvd, -⟩ := fFloor_ok_iff.mp hf
    exact fFloor_and_fCeil_of_whole hdvd (inS_of_fFloor_ok hx hf)
  · obtain ⟨-, hdvd, -⟩ := fCeil_ok_iff.mp hc
    exact (fFloor_and_fCeil_of_whole hdvd (inS_of_fCeil_ok hx hc)).symm

end Sys2Proof.Machine
end

section
/-! PROOFS. The truncated quotient by its size and its sign, and family 2 (R101 to R104): DIV with its laws, MUL as one
product and one bias of HALF_UNIT that follows the first operand, and the round trip of the two. -/

namespace Sys2Proof.Machine

theorem abs_tdiv_eq (a b : Int) : |tdiv a b| = |a| / |b| := by
  rw [Int.abs_eq_natAbs, Int.abs_eq_natAbs, Int.abs_eq_natAbs]
  exact congrArg Nat.cast (Int.natAbs_tdiv a b)

theorem abs_tdiv_mul_abs_le (a : Int) {b : Int} (hb : b ≠ 0) : |tdiv a b| * |b| ≤ |a| := by
  rw [abs_tdiv_eq]
  exact Int.ediv_mul_le _ (abs_ne_zero.mpr hb)

theorem abs_lt_abs_tdiv_add_one_mul_abs (a : Int) {b : Int} (hb : b ≠ 0) : |a| < (|tdiv a b| + 1) * |b| := by
  rw [abs_tdiv_eq]
  exact Int.lt_ediv_add_one_mul_self _ (abs_pos.mpr hb)

/-- The quotient has the sign of a·b or is zero. -/
theorem tdiv_mul_mul_nonneg (a b : Int) : 0 ≤ tdiv a b * (a * b) := by
  have hformula : tdiv a b * (a * b) = (a.sign * a) * (b.sign * b) * ((a.natAbs / b.natAbs : Nat) : Int) := by
    rw [tdiv_eq_sign_mul_sign_mul_natAbs_div]
    ring
  rw [hformula, Int.sign_mul_self, Int.sign_mul_self]
  positivity

theorem nonneg_of_mul_unit_nonneg {v : Int} (h : 0 ≤ v * UNIT) : 0 ≤ v := nonneg_of_mul_nonneg_left h unit_pos

theorem fDiv_of_not_inS {x : Int} (y : Int) (h : ¬ InS (x * UNIT)) : fDiv x y = .error .divOverflow := by
  rw [fDiv_eq, if_neg h]

theorem fDiv_zero {x : Int} (h : InS (x * UNIT)) : fDiv x 0 = .error .divByZero := by
  rw [fDiv_eq, if_pos h, if_pos rfl]

theorem fDiv_ok_iff {x y q : Int} : fDiv x y = .ok q ↔ InS (x * UNIT) ∧ y ≠ 0 ∧ tdiv (x * UNIT) y = q := by
  rw [fDiv_eq]
  split
  next h =>
    split
    next hy => exact ⟨nofun, fun ⟨_, hy', _⟩ => absurd hy hy'⟩
    next hy => exact ⟨fun hq => ⟨h, hy, Except.ok.inj hq⟩, fun ⟨_, _, hq⟩ => congrArg _ hq⟩
  next h => exact ⟨nofun, fun ⟨h', _⟩ => absurd h' h⟩

/-- Settles O36: `fDiv` case by case, and the truncated quotient by its size and its sign; the factor UNIT does not change
the sign of the dividend. -/
theorem divTruncatesTheScaledQuotient : Obligations.DivTruncatesTheScaledQuotient := by
  refine ⟨fun s h => ?_, fun s h hy => ?_, fun s h hy => ?_, rfl⟩
  · exact exec_of_outcome_error (i := .div) (onSigned2_of_error (fDiv_of_not_inS _ h))
  · exact exec_of_outcome_error (i := .div) (onSigned2_of_error (hy ▸ fDiv_zero h))
  · have hf := fDiv_ok_iff.mpr ⟨h, hy, rfl⟩
    obtain ⟨w, hexec, hw⟩ := exec_of_outcome_enc (i := .div) (onSigned2_of_ok hf) (inS_of_fDiv_ok hf)
    refine ⟨w, hexec, ?_⟩
    rw [hw]
    refine ⟨abs_tdiv_mul_abs_le _ hy, abs_lt_abs_tdiv_add_one_mul_abs _ hy, nonneg_of_mul_unit_nonneg ?_⟩
    calc 0 ≤ tdiv (sval s.capA * UNIT) (sval s.capB) * (sval s.capA * UNIT * sval s.capB) := tdiv_mul_mul_nonneg _ _
      _ = tdiv (sval s.capA * UNIT) (sval s.capB) * (sval s.capA * sval s.capB) * UNIT := by ring

/-- The bound that R101 and R104 print, ⌊MAX_59x18 / UNIT⌋. It is the same on both sides of zero: MIN_59x18 is not a multiple
of UNIT. -/
theorem inS_mul_unit_iff (x : Int) :
    InS (x * UNIT) ↔ |x| ≤ 57896044618658097711785492504343953926634992332820282019728 := by
  rw [abs_le]
  simp only [InS, UNIT, MIN_59x18, MAX_59x18]
  omega

theorem inS_neg_mul_unit {x : Int} (h : InS (x * UNIT)) : InS (-x * UNIT) := by
  rw [inS_mul_unit_iff, abs_neg]
  exact (inS_mul_unit_iff x).mp h

/-- The error of DIV, scaled by the divisor, is the remainder of the division. -/
theorem abs_fDiv_error_lt {x y q : Int} (h : fDiv x y = .ok q) : |q * y - x * UNIT| < |y| := by
  obtain ⟨-, hy, rfl⟩ := fDiv_ok_iff.mp h
  calc |tdiv (x * UNIT) y * y - x * UNIT| = |trem (x * UNIT) y| := by rw [abs_sub_comm, trem, mul_comm y]
    _ < |y| := abs_trem_lt _ hy

theorem fDiv_neg_left {x y q : Int} (h : fDiv x y = .ok q) : fDiv (-x) y = .ok (-q) := by
  obtain ⟨hx, hy, rfl⟩ := fDiv_ok_iff.mp h
  refine fDiv_ok_iff.mpr ⟨inS_neg_mul_unit hx, hy, ?_⟩
  rw [neg_mul]
  exact Int.neg_tdiv _ _

theorem fDiv_neg_right {x y q : Int} (h : fDiv x y = .ok q) : fDiv x (-y) = .ok (-q) := by
  obtain ⟨hx, hy, rfl⟩ := fDiv_ok_iff.mp h
  exact fDiv_ok_iff.mpr ⟨hx, neg_ne_zero.mpr hy, Int.tdiv_neg _ _⟩

/-- Settles O37: the printed bound is `inS_mul_unit_iff`, the error is the remainder, and truncation is odd in each
argument. -/
theorem divRangeErrorBoundAndOddness : Obligations.DivRangeErrorBoundAndOddness :=
  ⟨fun x => (not_congr (inS_mul_unit_iff x)).trans not_le, fun _ _ _ => abs_fDiv_error_lt,
    fun _ _ _ h => ⟨fDiv_neg_left h, fDiv_neg_right h⟩⟩

/-- What MUL adds to the product before it truncates (R102): the sign of the first operand alone picks it. -/
def halfBias (x : Int) : Int := if x > 0 then HALF_UNIT else -HALF_UNIT

theorem halfBias_of_pos {x : Int} (h : 0 < x) : halfBias x = HALF_UNIT := if_pos h

theorem halfBias_of_nonpos {x : Int} (h : x ≤ 0) : halfBias x = -HALF_UNIT := if_neg h.not_gt

theorem abs_halfBias (x : Int) : |halfBias x| = HALF_UNIT := by
  rcases lt_or_ge 0 x with hx | hx
  · rw [halfBias_of_pos hx]
    rfl
  · rw [halfBias_of_nonpos hx]
    rfl

/-- MUL reads its operands only through their product and the bias. -/
theorem fMul_eq_halfBias (x y : Int) :
    fMul x y =
      if InS (x * y) then
        if InS (x * y + halfBias x) then .ok (tdiv (x * y + halfBias x) UNIT) else .error .mulRoundOverflow
      else .error .mulOverflow := by
  have hq : (if x > 0 then x * y + HALF_UNIT else x * y - HALF_UNIT) = x * y + halfBias x := by
    rw [halfBias, add_ite, ← sub_eq_add_neg]
  rw [fMul_eq, hq]

theorem fMul_of_not_inS {x y : Int} (h : ¬ InS (x * y)) : fMul x y = .error .mulOverflow := by
  rw [fMul_eq_halfBias, if_neg h]

theorem fMul_of_bias_not_inS {x y : Int} (h : InS (x * y)) (hq : ¬ InS (x * y + halfBias x)) :
    fMul x y = .error .mulRoundOverflow := by
  rw [fMul_eq_halfBias, if_pos h, if_neg hq]

theorem fMul_ok_iff {x y m : Int} :
    fMul x y = .ok m ↔ InS (x * y) ∧ InS (x * y + halfBias x) ∧ tdiv (x * y + halfBias x) UNIT = m := by
  rw [fMul_eq_halfBias]
  split
  next h =>
    split
    next hq => exact ⟨fun hm => ⟨h, hq, Except.ok.inj hm⟩, fun ⟨_, _, hm⟩ => congrArg _ hm⟩
    next hq => exact ⟨nofun, fun ⟨_, hq', _⟩ => absurd hq' hq⟩
  next h => exact ⟨nofun, fun ⟨h', _⟩ => absurd h' h⟩

/-- Settles O38: `fMul` case by case, with the bias read off the sign of x, and the truncated quotient by its size and its
sign. -/
theorem mulRoundsOnTheSignOfItsFirstOperand : Obligations.MulRoundsOnTheSignOfItsFirstOperand := by
  refine ⟨fun s h => ?_, fun s h hx hp => ?_, fun s h hx hp => ?_, fun s q h hcase hq => ?_, rfl⟩
  · exact exec_of_outcome_error (i := .mul) (onSigned2_of_error (fMul_of_not_inS h))
  · have hq : ¬ InS (sval s.capA * sval s.capB + halfBias (sval s.capA)) := fun hq => by
      rw [halfBias_of_pos hx] at hq
      exact (sub_lt_iff_lt_add.mp hp).not_ge hq.2
    exact exec_of_outcome_error (i := .mul) (onSigned2_of_error (fMul_of_bias_not_inS h hq))
  · have hq : ¬ InS (sval s.capA * sval s.capB + halfBias (sval s.capA)) := fun hq => by
      rw [halfBias_of_nonpos hx, ← sub_eq_add_neg] at hq
      exact (sub_lt_iff_lt_add.mpr hp).not_ge hq.1
    exact exec_of_outcome_error (i := .mul) (onSigned2_of_error (fMul_of_bias_not_inS h hq))
  · have hbias : sval s.capA * sval s.capB + halfBias (sval s.capA) = q := by
      rcases hcase with ⟨hx, rfl⟩ | ⟨hx, rfl⟩
      · rw [halfBias_of_pos hx]
      · rw [halfBias_of_nonpos hx, ← sub_eq_add_neg]
    have hf := fMul_ok_iff.mpr ⟨h, hbias.symm ▸ hq, congrArg (tdiv · UNIT) hbias⟩
    obtain ⟨w, hexec, hw⟩ := exec_of_outcome_enc (i := .mul) (onSigned2_of_ok hf) (inS_of_fMul_ok hf)
    refine ⟨w, hexec, ?_⟩
    rw [hw]
    have hU : UNIT ≠ 0 := unit_pos.ne'
    refine ⟨abs_tdiv_mul_abs_le q hU, abs_lt_abs_tdiv_add_one_mul_abs q hU, nonneg_of_mul_unit_nonneg ?_⟩
    rw [mul_assoc]
    exact tdiv_mul_mul_nonneg q UNIT

/-- With the same strict sign both orders take the same bias. -/
theorem fMul_comm_of_same_sign {x y : Int} (h : 0 < x ∧ 0 < y ∨ x < 0 ∧ y < 0) : fMul x y = fMul y x := by
  have hbias : halfBias x = halfBias y := by
    rcases h with ⟨hx, hy⟩ | ⟨hx, hy⟩
    · rw [halfBias_of_pos hx, halfBias_of_pos hy]
    · rw [halfBias_of_nonpos hx.le, halfBias_of_nonpos hy.le]
  rw [fMul_eq_halfBias, fMul_eq_halfBias, hbias, mul_comm]

/-- The whole-value bounds lie more than HALF_UNIT inside the signed range, so the bias of a scaled operand always fits. -/
theorem inS_mul_unit_add_halfBias {x : Int} (h : InS (x * UNIT)) : InS (x * UNIT + halfBias x) := by
  have hbounds := whole_bounds_of_inS (dvd_mul_left UNIT x) h
  have hbias := abs_le.mp (abs_halfBias x).le
  simp only [InS, MIN_WHOLE_59x18, MAX_WHOLE_59x18, MIN_59x18, MAX_59x18, HALF_UNIT] at hbounds hbias ⊢
  omega

/-- The bias points away from zero on a scaled operand, so truncation takes it off again. -/
theorem tdiv_mul_unit_add_halfBias (x : Int) : tdiv (x * UNIT + halfBias x) UNIT = x := by
  have hdiv := mul_tdiv_add_trem (x * UNIT + halfBias x) UNIT
  have hlt := trem_unit_lt (x * UNIT + halfBias x)
  rcases lt_or_ge 0 x with hx | hx
  · rw [halfBias_of_pos hx] at *
    have hr : 0 ≤ trem (x * UNIT + HALF_UNIT) UNIT := trem_nonneg UNIT (by simp only [UNIT, HALF_UNIT]; omega)
    simp only [UNIT, HALF_UNIT] at *
    omega
  · rw [halfBias_of_nonpos hx] at *
    have hr : trem (x * UNIT + -HALF_UNIT) UNIT ≤ 0 := trem_nonpos UNIT (by simp only [UNIT, HALF_UNIT]; omega)
    simp only [UNIT, HALF_UNIT] at *
    omega

theorem fMul_unit_right {x : Int} (h : InS (x * UNIT)) : fMul x UNIT = .ok x :=
  fMul_ok_iff.mpr ⟨h, inS_mul_unit_add_halfBias h, tdiv_mul_unit_add_halfBias x⟩

/-- Settles O39: the left identity is the right one, commuted where x > 0; at 0 and at −1 the model computes it. -/
theorem mulByUnitIsTheIdentityInRange : Obligations.MulByUnitIsTheIdentityInRange := by
  refine ⟨fun x h => fMul_unit_right ((inS_mul_unit_iff x).mpr h),
    fun x h => fMul_of_not_inS (mt (inS_mul_unit_iff x).mp h.not_ge), fun x h0 h => ?_, rfl⟩
  rcases h0.eq_or_lt with rfl | hx
  · rfl
  · rw [fMul_comm_of_same_sign (.inl ⟨unit_pos, hx⟩)]
    exact fMul_unit_right ((inS_mul_unit_iff x).mpr (by rwa [abs_of_pos hx]))

/-- m is p / UNIT rounded to the nearest integer, a tie away from zero (R104). -/
def RoundsHalfAway (m p : Int) : Prop :=
  2 * |m * UNIT - p| ≤ UNIT ∧ (2 * |m * UNIT - p| = UNIT → |p| < |m * UNIT|)

theorem RoundsHalfAway.neg {m p : Int} (h : RoundsHalfAway m p) : RoundsHalfAway (-m) (-p) := by
  have herr : |-m * UNIT - -p| = |m * UNIT - p| := by rw [neg_mul, ← neg_sub', abs_neg]
  rw [RoundsHalfAway, herr, neg_mul, abs_neg, abs_neg]
  exact h

/-- Before truncation p + HALF_UNIT lies less than UNIT above the result, so the error is HALF_UNIT minus the remainder; a
tie is remainder 0. -/
theorem roundsHalfAway_of_nonneg {p : Int} (hp : 0 ≤ p) : RoundsHalfAway (tdiv (p + HALF_UNIT) UNIT) p := by
  have hr := trem_nonneg UNIT (add_nonneg hp (by decide : 0 ≤ HALF_UNIT))
  have hlt := (trem_unit_lt (p + HALF_UNIT)).2
  have hm : tdiv (p + HALF_UNIT) UNIT * UNIT = p + HALF_UNIT - trem (p + HALF_UNIT) UNIT := by
    have := mul_tdiv_add_trem (p + HALF_UNIT) UNIT
    rw [mul_comm]
    omega
  rw [RoundsHalfAway, hm]
  generalize trem (p + HALF_UNIT) UNIT = r at hr hlt
  have hunit : UNIT = 2 * HALF_UNIT := rfl
  have hpos := unit_pos
  have herr : |p + HALF_UNIT - r - p| ≤ HALF_UNIT := abs_le.mpr ⟨by omega, by omega⟩
  refine ⟨by omega, fun htie => ?_⟩
  have hr0 : r = 0 := by
    rcases abs_cases (p + HALF_UNIT - r - p) with ⟨habs, -⟩ | ⟨habs, -⟩ <;> omega
  rw [hr0, abs_of_nonneg hp, abs_of_nonneg (by omega)]
  omega

theorem roundsHalfAway_of_nonpos {p : Int} (hp : p ≤ 0) : RoundsHalfAway (tdiv (p + -HALF_UNIT) UNIT) p := by
  have hneg : tdiv (p + -HALF_UNIT) UNIT = -tdiv (-p + HALF_UNIT) UNIT := by
    rw [show p + -HALF_UNIT = -(-p + HALF_UNIT) by ring]
    exact Int.neg_tdiv _ _
  rw [hneg]
  simpa only [neg_neg] using (roundsHalfAway_of_nonneg (neg_nonneg.mpr hp)).neg

/-- Where the product does not have the sign opposite to x, the bias points away from zero. -/
theorem roundsHalfAway_of_fMul_ok {x y m : Int} (h : fMul x y = .ok m) (hy : 0 ≤ y ∨ x = 0) : RoundsHalfAway m (x * y) := by
  obtain ⟨-, -, rfl⟩ := fMul_ok_iff.mp h
  rcases lt_or_ge 0 x with hx | hx
  · rw [halfBias_of_pos hx]
    exact roundsHalfAway_of_nonneg (mul_nonneg hx.le (hy.resolve_right hx.ne'))
  · rw [halfBias_of_nonpos hx]
    refine roundsHalfAway_of_nonpos ?_
    rcases hy with hy | rfl
    · exact mul_nonpos_of_nonpos_of_nonneg hx hy
    · exact (zero_mul y).le

/-- Whatever the signs, the error is the bias minus the remainder: less than HALF_UNIT and UNIT together. -/
theorem abs_fMul_error_lt {x y m : Int} (h : fMul x y = .ok m) : 2 * |m * UNIT - x * y| < 3 * UNIT := by
  obtain ⟨-, -, rfl⟩ := fMul_ok_iff.mp h
  have hr : |trem (x * y + halfBias x) UNIT| < UNIT := abs_lt.mpr (trem_unit_lt _)
  have herr : tdiv (x * y + halfBias x) UNIT * UNIT - x * y = halfBias x - trem (x * y + halfBias x) UNIT := by
    rw [trem]
    ring
  have htri := abs_sub (halfBias x) (trem (x * y + halfBias x) UNIT)
  rw [abs_halfBias] at htri
  rw [herr]
  simp only [UNIT, HALF_UNIT] at hr htri ⊢
  omega

/-- Settles O40: equal bias for equal signs, `RoundsHalfAway` where the bias points away from zero, and the general bound on
the error. -/
theorem mulRoundingErrorAndCommutation : Obligations.MulRoundingErrorAndCommutation :=
  ⟨fun _ _ => fMul_comm_of_same_sign, fun _ _ _ => roundsHalfAway_of_fMul_ok, fun _ _ _ h _ _ => abs_fMul_error_lt h⟩

/-- Settles O41: the errors of the two steps, both scaled by UNIT, add up. -/
theorem divThenMulStaysWithinTheBound : Obligations.DivThenMulStaysWithinTheBound := by
  intro x y d m hd hm
  have hdiv := abs_fDiv_error_lt hd
  have hmul := abs_fMul_error_lt hm
  have hsum : UNIT * |m - x| ≤ |m * UNIT - d * y| + |d * y - x * UNIT| :=
    calc UNIT * |m - x| = |m * UNIT - x * UNIT| := by rw [← sub_mul, abs_mul, abs_of_pos unit_pos, mul_comm]
      _ ≤ |m * UNIT - d * y| + |d * y - x * UNIT| := abs_sub_le _ _ _
  have hbound : 2 * UNIT * |m - x| < 2 * |y| + 3 * UNIT := by
    rw [mul_assoc]
    omega
  refine ⟨hbound, fun hy => ?_⟩
  simp only [UNIT] at hbound hy
  omega

end Sys2Proof.Machine
end

section
/-! PROOFS. Family 3 (R121 to R125): the search of MSB finds the base-2 logarithm, SPREAD fills the bits below the highest
one, ISPOW2 and NEXTPOW2 follow, and ALIGN agrees with the logical shift. -/

namespace Sys2Proof.Machine

/-- A command that ends with a word answers OK with that word (R17, R70). -/
theorem exec_of_outcome_ok {i : Instr} {s : State} {w : Word} (h : outcome i s.capA s.capB = .ok w) :
    exec i s = .next (s.present { status := 0, cause := 0, result := w }) := by
  rw [exec_eq_present, h, respond_ok]

/-! MSB (R121). -/

/-- The search over these shift amounts adds the base-2 logarithm of every value of at most n bits to the index. -/
def FindsMsb (steps : List Nat) (n : Nat) : Prop :=
  ∀ u m, u < 2 ^ n → msbSearch steps u m = m + Nat.log 2 u

theorem findsMsb_nil : FindsMsb [] 1 := fun _ m hu =>
  congrArg (m + ·) (Nat.log_of_lt hu).symm

/-- One step halves the number of bits: it takes the upper half of u and counts the lower one, or leaves u alone when the
upper half is empty. -/
theorem findsMsb_cons {s : Nat} {rest : List Nat} (h : FindsMsb rest s) : FindsMsb (s :: rest) (s + s) := by
  intro u m hu
  rw [msbSearch]
  split
  next hge =>
    have hlow : lsr u s < 2 ^ s := Nat.div_lt_of_lt_mul (Nat.pow_add 2 s s ▸ hu)
    have hlog : s ≤ Nat.log 2 u := Nat.le_log_of_pow_le Nat.one_lt_two hge
    rw [h _ _ hlow, lsr, Nat.log_div_base_pow]
    omega
  next hlt => exact h u m (not_le.mp hlt)

theorem findsMsb_msbSteps : FindsMsb msbSteps 256 :=
  findsMsb_cons <| findsMsb_cons <| findsMsb_cons <| findsMsb_cons <|
    findsMsb_cons <| findsMsb_cons <| findsMsb_cons <| findsMsb_cons findsMsb_nil

theorem fMsb_eq_log {u : Nat} (h : u < 2 ^ 256) : fMsb u = Nat.log 2 u :=
  (findsMsb_msbSteps u 0 h).trans (Nat.zero_add _)

theorem two_pow_fMsb_le {u : Nat} (h0 : u ≠ 0) (h : u < 2 ^ 256) : 2 ^ fMsb u ≤ u := by
  rw [fMsb_eq_log h]
  exact Nat.pow_log_le_self 2 h0

theorem lt_two_pow_fMsb_add_one {u : Nat} (h : u < 2 ^ 256) : u < 2 ^ (fMsb u + 1) := by
  rw [fMsb_eq_log h]
  exact Nat.lt_pow_succ_log_self Nat.one_lt_two u

theorem exec_msb (s : State) :
    exec .msb s = .next (s.present { status := 0, cause := 0, result := zext256 (fMsb (uval s.capA)) }) :=
  exec_of_outcome_ok rfl

/-- Settles O42: the result word reads back as the index, and the index is the base-2 logarithm of the operand. -/
theorem msbGivesTheHighestSetBit : Obligations.MsbGivesTheHighestSetBit := by
  refine ⟨fun s h => ?_, fun s h => ⟨_, exec_msb s, ?_⟩, rfl⟩
  · rw [exec_msb, h]
    rfl
  · have hle := fMsb_le (uval s.capA)
    rw [uval_zext256 (hle.trans_lt (by norm_num))]
    exact ⟨hle, two_pow_fMsb_le h (uval_lt _), lt_two_pow_fMsb_add_one (uval_lt _)⟩

/-! SPREAD (R125). -/

@[simp] theorem testBit_lsr (u n i : Nat) : (lsr u n).testBit i = u.testBit (i + n) := Nat.testBit_div_two_pow u i

/-- After k rounds bit i is the OR of the 2 ^ k bits of v from i upward. -/
theorem testBit_foldl_spread (k v i : Nat) :
    (((List.range k).map (2 ^ ·)).foldl (fun acc s => acc ||| lsr acc s) v).testBit i = true ↔
      ∃ j < 2 ^ k, v.testBit (i + j) = true := by
  induction k generalizing i with
  | zero => simp
  | succ k ih =>
    simp only [List.range_succ, List.map_append, List.map_cons, List.map_nil, List.foldl_append, List.foldl_cons,
      List.foldl_nil, Nat.testBit_or, Bool.or_eq_true, testBit_lsr, ih, Nat.pow_succ]
    constructor
    · rintro (⟨j, hj, hbit⟩ | ⟨j, hj, hbit⟩)
      · exact ⟨j, by omega, hbit⟩
      · exact ⟨2 ^ k + j, by omega, by rwa [← Nat.add_assoc]⟩
    · rintro ⟨j, hj, hbit⟩
      rcases lt_or_ge j (2 ^ k) with hlow | hhigh
      · exact .inl ⟨j, hlow, hbit⟩
      · exact .inr ⟨j - 2 ^ k, by omega, by rwa [Nat.add_assoc, Nat.add_sub_cancel' hhigh]⟩

/-- The eight rounds reach 256 bits upward, so a bit of the result is set when v has any bit set there or above. -/
theorem testBit_spread {v : Nat} (hv : v < 2 ^ 256) (i : Nat) : (spread v).testBit i = true ↔ 2 ^ i ≤ v := by
  refine (testBit_foldl_spread 8 v i).trans ⟨fun ⟨j, _, hbit⟩ => ?_, fun h => ?_⟩
  · exact (Nat.pow_le_pow_right Nat.two_pos (Nat.le_add_right i j)).trans (Nat.ge_two_pow_of_testBit hbit)
  · obtain ⟨k, hk, hbit⟩ := Nat.exists_ge_and_testBit_of_ge_two_pow h
    have hk256 : k < 256 := (Nat.pow_lt_pow_iff_right Nat.one_lt_two).mp ((Nat.ge_two_pow_of_testBit hbit).trans_lt hv)
    exact ⟨k - i, by omega, by rwa [Nat.add_sub_cancel' hk]⟩

/-- SPREAD is the all-ones value of the operand's length in bits, 0 for 0. -/
theorem spread_eq {v : Nat} (hv : v < 2 ^ 256) : spread v = 2 ^ v.size - 1 := by
  refine Nat.eq_of_testBit_eq fun i => Bool.eq_iff_iff.mpr ?_
  rw [testBit_spread hv, Nat.testBit_two_pow_sub_one, decide_eq_true_iff, Nat.lt_size]

theorem fMsb_add_one_eq_size {v : Nat} (h0 : v ≠ 0) (hv : v < 2 ^ 256) : fMsb v + 1 = v.size :=
  le_antisymm (Nat.lt_size.mpr (two_pow_fMsb_le h0 hv)) (Nat.size_le.mpr (lt_two_pow_fMsb_add_one hv))

/-- Settles O45: SPREAD has as many ones as the operand has bits; a positive value in range is its own word, and the shift
makes it no larger. -/
theorem spreadAndAlignHelpers : Obligations.SpreadAndAlignHelpers := by
  refine ⟨rfl, fun v h0 hv => ?_, fun x n hx hin _ => ?_⟩
  · rw [fMsb_add_one_eq_size h0.ne' hv, spread_eq hv]
  · have hword : (uval (enc x) : Int) = x := uval_enc ⟨hx.le, hin.2.trans (by decide)⟩
    have hnonneg : 0 ≤ align x n := Int.ediv_nonneg hx.le (by positivity)
    have hle : align x n ≤ x := Int.ediv_le_self _ hx.le
    refine ⟨?_, hnonneg, le_trans (by decide) hnonneg, hle.trans hin.2⟩
    rw [lsr, Int.natCast_div, hword, Nat.cast_pow]
    rfl

/-! ISPOW2 (R122). -/

theorem isPowerOfTwo_iff_existsUnique_testBit (u : Nat) : u.isPowerOfTwo ↔ ∃! k : Nat, u.testBit k = true := by
  constructor
  · rintro ⟨k, rfl⟩
    simp only [Nat.testBit_two_pow, decide_eq_true_iff]
    exact existsUnique_eq'
  · rintro ⟨k, hk, huniq⟩
    refine ⟨k, Nat.eq_of_testBit_eq fun i => Bool.eq_iff_iff.mpr ?_⟩
    rw [Nat.testBit_two_pow, decide_eq_true_iff]
    exact ⟨fun hi => (huniq i hi).symm, fun h => h ▸ hk⟩

theorem outcome_ispow2_of_ne_zero {a : Word} (b : Word) (h : uval a ≠ 0) :
    outcome .ispow2 a b = .ok (boolWord (uval a &&& (uval a - 1) == 0)) :=
  congrArg (Except.map boolWord) (if_neg h)

/-- The test u AND (u − 1) = 0 tells whether one bit is set. -/
theorem and_sub_one_eq_zero_iff_existsUnique_testBit {u : Nat} (h : u ≠ 0) :
    u &&& (u - 1) = 0 ↔ ∃! k : Nat, u.testBit k = true :=
  (Nat.and_sub_one_eq_zero_iff_isPowerOfTwo h).trans (isPowerOfTwo_iff_existsUnique_testBit u)

/-- Settles O43: the operand is 0, which has no bit set, or the test on u − 1 decides. -/
theorem ispow2TellsOneSetBit : Obligations.Ispow2TellsOneSetBit := by
  refine ⟨fun s h => ?_, fun s hone => ?_, fun s h hnot => ?_, rfl⟩
  · exact exec_of_outcome_error (i := .ispow2) (congrArg (Except.map boolWord) (if_pos h))
  · have h : uval s.capA ≠ 0 := fun h => by simp [h] at hone
    have htest := (and_sub_one_eq_zero_iff_existsUnique_testBit h).mpr hone
    exact exec_of_outcome_ok ((outcome_ispow2_of_ne_zero _ h).trans (by rw [htest]; rfl))
  · have htest := mt (and_sub_one_eq_zero_iff_existsUnique_testBit h).mp hnot
    exact exec_of_outcome_ok ((outcome_ispow2_of_ne_zero _ h).trans (by rw [beq_false_of_ne htest]; rfl))

/-! NEXTPOW2 (R123). -/

/-- SPREAD of u − 1 plus one is two to the length of u − 1 in bits. -/
theorem fNextpow2_of_ne_zero {u : Nat} (h : u ≠ 0) (hu : u < 2 ^ 256) :
    fNextpow2 u = .ok (enc ((2 ^ (u - 1).size : Nat) : Int)) := by
  rw [fNextpow2, if_neg h, spread_eq (by omega), ← Nat.cast_add_one, Nat.sub_add_cancel Nat.one_le_two_pow]

/-- The length of u − 1 in bits is the least exponent whose power of two reaches u. -/
theorem size_sub_one_le_iff {u j : Nat} (h : u ≠ 0) : (u - 1).size ≤ j ↔ u ≤ 2 ^ j := by
  rw [Nat.size_le]
  omega

theorem exec_nextpow2_of_ne_zero {s : State} (h : uval s.capA ≠ 0) :
    exec .nextpow2 s = .next (s.present
      { status := 0, cause := 0, result := enc ((2 ^ (uval s.capA - 1).size : Nat) : Int) }) :=
  exec_of_outcome_ok (fNextpow2_of_ne_zero h (uval_lt _))

/-- Settles O44: the result is two to the length of u − 1 in bits, which fits a word unless that length is 256. -/
theorem nextpow2RoundsUpAndWraps : Obligations.Nextpow2RoundsUpAndWraps := by
  refine ⟨fun s h => ?_, fun s h1 h255 => ?_, fun s hgt => ?_, rfl⟩
  · exact exec_of_outcome_error (i := .nextpow2) (if_pos h)
  · have h : uval s.capA ≠ 0 := by omega
    have hpow : 2 ^ (uval s.capA - 1).size ≤ 2 ^ 255 :=
      Nat.pow_le_pow_right Nat.two_pos ((size_sub_one_le_iff h).mpr h255)
    have hword : uval (enc ((2 ^ (uval s.capA - 1).size : Nat) : Int)) = 2 ^ (uval s.capA - 1).size :=
      Int.ofNat.inj (uval_enc ⟨by positivity, by omega⟩)
    refine ⟨_, _, exec_nextpow2_of_ne_zero h, hword, ?_⟩
    rw [hword]
    exact ⟨(size_sub_one_le_iff h).mp le_rfl, fun j hj =>
      Nat.pow_le_pow_right Nat.two_pos ((size_sub_one_le_iff h).mpr hj)⟩
  · have h : uval s.capA ≠ 0 := by omega
    have hle : (uval s.capA - 1).size ≤ 256 := (size_sub_one_le_iff h).mpr (uval_lt _).le
    have hge : ¬ (uval s.capA - 1).size ≤ 255 := mt (size_sub_one_le_iff h).mp hgt.not_ge
    have hsize : (uval s.capA - 1).size = 256 := by omega
    rw [exec_nextpow2_of_ne_zero h, hsize]
    rfl

end Sys2Proof.Machine
end

section
/-! PROOFS. The loop of the logarithm (R145, R146): one iteration as a step of y and the gain of one bit, and the 59
iterations as the sum of their gains. -/

namespace Sys2Proof.Machine

theorem tdiv_of_nonneg {a : Int} (b : Int) (h : 0 ≤ a) : tdiv a b = a / b := Int.tdiv_eq_ediv_of_nonneg h

/-- The square of y, rescaled (R145). -/
def logSquare (y : Int) : Int := y * y / UNIT

/-- The value of y after one iteration (R145). -/
def logNext (y : Int) : Int := if logSquare y ≥ TWICE_UNIT then logSquare y / 2 else logSquare y

/-- What one iteration with weight d adds to the size of the result (R145). -/
def logGain (y d : Int) : Int := if logSquare y ≥ TWICE_UNIT then d else 0

/-- What k iterations from y and weight d add to the size of the result. -/
def logBits (k : Nat) (d y : Int) : Int := ∑ j ∈ Finset.range k, logGain (logNext^[j] y) (d / 2 ^ j)

theorem twice_le_logSquare_iff {y : Int} : logSquare y ≥ TWICE_UNIT ↔ TWICE_UNIT * UNIT ≤ y * y :=
  Int.le_ediv_iff_mul_le unit_pos

theorem logSquare_nonneg (y : Int) : 0 ≤ logSquare y := Int.ediv_nonneg (mul_self_nonneg y) unit_pos.le

theorem logSquare_le_logSquare {y z : Int} (hy : 0 ≤ y) (h : y ≤ z) : logSquare y ≤ logSquare z :=
  Int.ediv_le_ediv unit_pos (mul_self_le_mul_self hy h)

theorem logNext_of_take {y : Int} (h : logSquare y ≥ TWICE_UNIT) : logNext y = logSquare y / 2 := if_pos h

theorem logNext_of_skip {y : Int} (h : ¬ logSquare y ≥ TWICE_UNIT) : logNext y = logSquare y := if_neg h

theorem logGain_of_take {y : Int} (d : Int) (h : logSquare y ≥ TWICE_UNIT) : logGain y d = d := if_pos h

theorem logGain_of_skip {y : Int} (d : Int) (h : ¬ logSquare y ≥ TWICE_UNIT) : logGain y d = 0 := if_neg h

theorem logNext_nonneg (y : Int) : 0 ≤ logNext y := by
  have hs := logSquare_nonneg y
  by_cases h : logSquare y ≥ TWICE_UNIT
  · rw [logNext_of_take h]
    omega
  · rwa [logNext_of_skip h]

theorem logGain_bounds (y : Int) {d : Int} (hd : 0 ≤ d) : 0 ≤ logGain y d ∧ logGain y d ≤ d := by
  by_cases h : logSquare y ≥ TWICE_UNIT
  · rw [logGain_of_take d h]
    exact ⟨hd, le_rfl⟩
  · rw [logGain_of_skip d h]
    exact ⟨le_rfl, hd⟩

/-- One iteration in one equation (R145). -/
theorem logIter_eq (r : LogRegs) :
    logIter r = { y := logNext r.y, res := r.res + logGain r.y r.delta * r.sign, delta := r.delta / 2, sign := r.sign } := by
  have hsquare : tdiv (r.y * r.y) UNIT = logSquare r.y := tdiv_of_nonneg _ (mul_self_nonneg r.y)
  simp only [logIter, hsquare]
  split
  next h => simp [logNext_of_take h, logGain_of_take _ h, align, asr]
  next h => simp [logNext_of_skip h, logGain_of_skip _ h, asr]

/-- The square of a value below TWICE_UNIT is below 4·UNIT², so half of it is below TWICE_UNIT again. -/
theorem logNext_normalised {y : Int} (h : UNIT ≤ y) (h' : y < TWICE_UNIT) : UNIT ≤ logNext y ∧ logNext y < TWICE_UNIT := by
  have hlow : UNIT ≤ logSquare y :=
    (Int.le_ediv_iff_mul_le unit_pos).mpr (mul_self_le_mul_self unit_pos.le h)
  have hhigh : logSquare y < 2 * TWICE_UNIT :=
    (Int.ediv_lt_iff_lt_mul unit_pos).mpr (mul_self_lt_mul_self (unit_pos.le.trans h) h')
  have htwice : TWICE_UNIT = 2 * UNIT := rfl
  by_cases ht : logSquare y ≥ TWICE_UNIT
  · rw [logNext_of_take ht]
    omega
  · rw [logNext_of_skip ht]
    omega

/-- Settles O48: `logIter_eq`, with the branch read off the square before it is rescaled. -/
theorem logIterationKeepsItsInvariant : Obligations.LogIterationKeepsItsInvariant := by
  intro r h h'
  obtain ⟨hlow, hhigh⟩ := logNext_normalised h h'
  rw [logIter_eq]
  refine ⟨mul_self_lt_mul_self (unit_pos.le.trans h) h', hlow, hhigh, rfl, rfl, fun ht => ?_, fun ht => ?_⟩
  · have ht := twice_le_logSquare_iff.mpr ht
    exact ⟨by rw [logGain_of_take _ ht], logNext_of_take ht⟩
  · have ht := mt twice_le_logSquare_iff.mp ht.not_ge
    exact ⟨by rw [logGain_of_skip _ ht, zero_mul, add_zero], logNext_of_skip ht⟩

theorem ediv_two_ediv_two_pow (d : Int) (k : Nat) : d / 2 / 2 ^ k = d / 2 ^ (k + 1) := by
  rw [pow_succ', Int.ediv_ediv_of_nonneg (by norm_num)]

/-- The first iteration split off: the others run from the next y with half the weight. -/
theorem logBits_succ (k : Nat) (d y : Int) : logBits (k + 1) d y = logGain y d + logBits k (d / 2) (logNext y) := by
  simp only [logBits, Finset.sum_range_succ', Function.iterate_succ_apply, ← ediv_two_ediv_two_pow]
  simp [add_comm]

theorem logIter_iterate (k : Nat) (r : LogRegs) :
    logIter^[k] r =
      { y := logNext^[k] r.y, res := r.res + logBits k r.delta r.y * r.sign, delta := r.delta / 2 ^ k, sign := r.sign } := by
  induction k generalizing r with
  | zero => simp [logBits]
  | succ k ih =>
    rw [Function.iterate_succ_apply, ih, logIter_eq, logBits_succ, ediv_two_ediv_two_pow, add_mul, add_assoc]
    rfl

/-- The loop stops at the first iterate whose delta is used up, if the fuel reaches it. -/
theorem logLoop_eq_iterate {r : LogRegs} {k fuel : Nat} (hpos : ∀ j, j < k → 0 < (logIter^[j] r).delta)
    (hend : (logIter^[k] r).delta ≤ 0) (hfuel : k ≤ fuel) : logLoop fuel r = logIter^[k] r := by
  induction fuel generalizing r k with
  | zero =>
    obtain rfl := Nat.le_zero.mp hfuel
    rfl
  | succ fuel ih =>
    rw [logLoop]
    cases k with
    | zero => exact if_neg hend.not_gt
    | succ k =>
      have hnow : 0 < r.delta := hpos 0 k.succ_pos
      rw [if_pos hnow]
      exact ih (fun j hj => hpos (j + 1) (Nat.succ_lt_succ hj)) hend (Nat.le_of_succ_le_succ hfuel)

theorem half_unit_div_pos {k : Nat} (h : k < 59) : 0 < HALF_UNIT / 2 ^ k := by
  have hpow : (2 : Int) ^ k ≤ 2 ^ 58 := pow_le_pow_right₀ (by norm_num) (Nat.le_of_lt_succ h)
  have hle : 1 * 2 ^ k ≤ HALF_UNIT := (one_mul _).trans_le (hpow.trans (by decide))
  exact Int.le_ediv_of_mul_le (by positivity) hle

/-- Settles O49: delta after k iterations is HALF_UNIT / 2 ^ k, which is 0 for the first time at k = 59. -/
theorem logLoopRunsFiftyNineIterations : Obligations.LogLoopRunsFiftyNineIterations := by
  refine ⟨rfl, rfl, fun r hr => ?_⟩
  have hpos : ∀ k, k < 59 → 0 < (logIter^[k] r).delta := fun k hk => by
    rw [logIter_iterate, hr]
    exact half_unit_div_pos hk
  have hend : (logIter^[59] r).delta = 0 := by
    rw [logIter_iterate, hr]
    rfl
  exact ⟨fun _ hfuel => logLoop_eq_iterate hpos hend.le hfuel, hpos, hend⟩

/-- The weights from d on add up to at most 2·d. -/
theorem logBits_bounds (k : Nat) {d : Int} (y : Int) (hd : 0 ≤ d) : 0 ≤ logBits k d y ∧ logBits k d y ≤ 2 * d := by
  induction k generalizing d y with
  | zero => simpa [logBits] using hd
  | succ k ih =>
    have hgain := logGain_bounds y hd
    have hrest := ih (d := d / 2) (logNext y) (by omega)
    rw [logBits_succ]
    omega

/-- A bit that only the larger value takes outweighs all later bits of the smaller one. -/
theorem logBits_mono (k : Nat) {d y z : Int} (hd : 0 ≤ d) (hy : 0 ≤ y) (h : y ≤ z) : logBits k d y ≤ logBits k d z := by
  induction k generalizing d y z with
  | zero => rfl
  | succ k ih =>
    have hd2 : 0 ≤ d / 2 := by omega
    have hsquare := logSquare_le_logSquare hy h
    have hstep : logNext y ≤ logNext z → logBits k (d / 2) (logNext y) ≤ logBits k (d / 2) (logNext z) :=
      ih hd2 (logNext_nonneg y)
    rw [logBits_succ, logBits_succ]
    by_cases hz : logSquare z ≥ TWICE_UNIT
    · by_cases hyt : logSquare y ≥ TWICE_UNIT
      · rw [logNext_of_take hyt, logNext_of_take hz] at hstep ⊢
        rw [logGain_of_take d hyt, logGain_of_take d hz]
        have := hstep (Int.ediv_le_ediv (by norm_num) hsquare)
        omega
      · rw [logGain_of_skip d hyt, logGain_of_take d hz]
        have := (logBits_bounds k (logNext y) hd2).2
        have := (logBits_bounds k (logNext z) hd2).1
        omega
    · have hyt : ¬ logSquare y ≥ TWICE_UNIT := fun hyt => hz (le_trans hyt hsquare)
      rw [logNext_of_skip hyt, logNext_of_skip hz] at hstep ⊢
      rw [logGain_of_skip d hyt, logGain_of_skip d hz]
      have := hstep hsquare
      omega

/-- UNIT is its own rescaled square, so from UNIT no bit is ever taken. -/
theorem logBits_unit (k : Nat) (d : Int) : logBits k d UNIT = 0 := by
  induction k generalizing d with
  | zero => rfl
  | succ k ih =>
    rw [logBits_succ, show logNext UNIT = UNIT from rfl, ih]
    rfl

end Sys2Proof.Machine
end

section
/-! PROOFS. Family 4 (R141 to R147): the stages before the loop, LOG2 as the sign times the integer part and the bits, and
what follows from that form: exact powers of two, monotonicity, the range, and LN, which never fails on a positive operand. -/

namespace Sys2Proof.Machine

/-- The sign of stage 1 (R142). -/
def logSign (x : Int) : Int := if x < UNIT then -1 else 1

/-- The value that stage 1 hands on: x itself or its reciprocal (R142). -/
def logArg (x : Int) : Int := if x < UNIT then 10 ^ 36 / x else x

/-- The size of the logarithm of x': its integer part and the bits of 59 iterations (R143 to R146). -/
def logSize (x' : Int) : Int := logIntPart x' * UNIT + logBits 59 HALF_UNIT (align x' (logIntPart x'))

theorem logSign_of_lt {x : Int} (h : x < UNIT) : logSign x = -1 := if_pos h

theorem logSign_of_ge {x : Int} (h : UNIT ≤ x) : logSign x = 1 := if_neg h.not_gt

theorem logArg_of_lt {x : Int} (h : x < UNIT) : logArg x = 10 ^ 36 / x := if_pos h

theorem logArg_of_ge {x : Int} (h : UNIT ≤ x) : logArg x = x := if_neg h.not_gt

/-- Stage 1 divides UNIT·UNIT, which is in range, by an operand that is not 0. -/
theorem logReciprocal_of_pos {x : Int} (hx : 0 < x) : logReciprocal x = .ok (logSign x, logArg x) := by
  rcases lt_or_ge x UNIT with h | h
  · have hdiv : fDiv UNIT x = .ok (10 ^ 36 / x) := fDiv_ok_iff.mpr ⟨by decide, hx.ne', tdiv_of_nonneg x (by decide)⟩
    rw [logSign_of_lt h, logArg_of_lt h, logReciprocal, if_pos h, hdiv]
    rfl
  · rw [logSign_of_ge h, logArg_of_ge h, logReciprocal, if_neg h.not_gt]

theorem unit_le_logArg {x : Int} (hx : 0 < x) : UNIT ≤ logArg x := by
  rcases lt_or_ge x UNIT with h | h
  · rw [logArg_of_lt h, Int.le_ediv_iff_mul_le hx]
    exact mul_le_mul_of_nonneg_left h.le unit_pos.le
  · rwa [logArg_of_ge h]

/-- The smaller operand has the larger reciprocal. -/
theorem logArg_anti {x y : Int} (hx : 0 < x) (h : x ≤ y) (hy : y < UNIT) : logArg y ≤ logArg x := by
  have hpos := hx.trans_le h
  rw [logArg_of_lt hy, logArg_of_lt (h.trans_lt hy), Int.le_ediv_iff_mul_le hx]
  calc 10 ^ 36 / y * x ≤ 10 ^ 36 / y * y := mul_le_mul_of_nonneg_left h (Int.ediv_nonneg (by norm_num) hpos.le)
    _ ≤ 10 ^ 36 := Int.ediv_mul_le _ hpos.ne'

theorem logArg_le_of_lt {x : Int} (h : x < UNIT) : logArg x ≤ 10 ^ 36 := by
  rw [logArg_of_lt h]
  exact Int.ediv_le_self x (by norm_num)

theorem logArg_le_max {x : Int} (hin : InS x) : logArg x ≤ MAX_59x18 := by
  rcases lt_or_ge x UNIT with h | h
  · exact (logArg_le_of_lt h).trans (by decide)
  · rw [logArg_of_ge h]
    exact hin.2

/-- Whole units of x', the value whose highest set bit stage 2 looks for. -/
theorem toNat_div_unit_bounds {x' : Int} (h : UNIT ≤ x') (hmax : x' ≤ MAX_59x18) :
    ((x' / UNIT).toNat : Int) = x' / UNIT ∧ (x' / UNIT).toNat ≠ 0 ∧ (x' / UNIT).toNat < 2 ^ 256 := by
  simp only [UNIT, MAX_59x18] at *
  omega

theorem logIntPart_eq_fMsb {x' : Int} (h : UNIT ≤ x') : logIntPart x' = fMsb (x' / UNIT).toNat := by
  rw [logIntPart, tdiv_of_nonneg UNIT (unit_pos.le.trans h)]

theorem logIntPart_eq_log {x' : Int} (h : UNIT ≤ x') (hmax : x' ≤ MAX_59x18) :
    logIntPart x' = Nat.log 2 (x' / UNIT).toNat := by
  rw [logIntPart_eq_fMsb h, fMsb_eq_log (toNat_div_unit_bounds h hmax).2.2]

/-- Stage 2 finds the power of two below x' (R143). -/
theorem logIntPart_bounds {x' : Int} (h : UNIT ≤ x') (hmax : x' ≤ MAX_59x18) :
    2 ^ logIntPart x' * UNIT ≤ x' ∧ x' < 2 ^ (logIntPart x' + 1) * UNIT := by
  obtain ⟨hcast, h0, hlt⟩ := toNat_div_unit_bounds h hmax
  have hlow : (2 : Int) ^ logIntPart x' ≤ x' / UNIT := by
    rw [← hcast, logIntPart_eq_fMsb h]
    exact_mod_cast two_pow_fMsb_le h0 hlt
  have hhigh : x' / UNIT < (2 : Int) ^ (logIntPart x' + 1) := by
    rw [← hcast, logIntPart_eq_fMsb h]
    exact_mod_cast lt_two_pow_fMsb_add_one hlt
  exact ⟨(Int.le_ediv_iff_mul_le unit_pos).mp hlow, (Int.ediv_lt_iff_lt_mul unit_pos).mp hhigh⟩

theorem logIntPart_lt {x' : Int} {k : Nat} (h : UNIT ≤ x') (hmax : x' ≤ MAX_59x18) (hk : x' < 2 ^ k * UNIT) :
    logIntPart x' < k := by
  have hpow : (2 : Int) ^ logIntPart x' < 2 ^ k :=
    lt_of_mul_lt_mul_right ((logIntPart_bounds h hmax).1.trans_lt hk) unit_pos.le
  exact (pow_lt_pow_iff_right₀ (by norm_num)).mp hpow

/-- Stage 3 scales x' down to one unit or more, but less than two (R144). -/
theorem align_logIntPart_bounds {x' : Int} (h : UNIT ≤ x') (hmax : x' ≤ MAX_59x18) :
    UNIT ≤ align x' (logIntPart x') ∧ align x' (logIntPart x') < TWICE_UNIT := by
  obtain ⟨hlow, hhigh⟩ := logIntPart_bounds h hmax
  have hpow : (0 : Int) < 2 ^ logIntPart x' := by positivity
  refine ⟨(Int.le_ediv_iff_mul_le hpow).mpr ((mul_comm _ _).trans_le hlow),
    (Int.ediv_lt_iff_lt_mul hpow).mpr (hhigh.trans_eq ?_)⟩
  rw [pow_succ, mul_assoc, mul_comm]
  rfl

/-- Settles O47: `logReciprocal_of_pos` for stage 1, and the bounds of stages 2 and 3 on a value from UNIT to MAX_59x18. -/
theorem logStagesNormalise : Obligations.LogStagesNormalise := by
  intro x hx hin
  have h := unit_le_logArg hx
  have hmax := logArg_le_max hin
  obtain ⟨hlow, hhigh⟩ := logIntPart_bounds h hmax
  have h195 : logIntPart (logArg x) < 196 := logIntPart_lt h hmax (hmax.trans_lt (by decide))
  refine ⟨logSign x, logArg x, logReciprocal_of_pos hx, fun hlt => ?_, fun hge => ⟨logSign_of_ge hge, logArg_of_ge hge⟩,
    h, ⟨le_trans (by decide) h, hmax⟩, hlow, hhigh, Nat.le_of_lt_succ h195, align_logIntPart_bounds h hmax⟩
  have hle := logArg_le_of_lt hlt
  exact ⟨logSign_of_lt hlt, (logArg_of_lt hlt).trans (tdiv_of_nonneg x (by norm_num)).symm, hle,
    Nat.le_of_lt_succ (logIntPart_lt h hmax (hle.trans_lt (by decide)))⟩

theorem logStart_res_add (sign x' : Int) :
    (logStart sign x').res + logBits 59 HALF_UNIT (logStart sign x').y * sign = sign * logSize x' := by
  simp only [logStart, logSize]
  ring

/-- LOG2 in one equation: the early exit is the loop from UNIT, which takes no bit (R141). -/
theorem fLog2_of_pos {x : Int} (hx : 0 < x) : fLog2 x = .ok (logSign x * logSize (logArg x)) := by
  have hloop (r : LogRegs) (hr : r.delta = HALF_UNIT) : logLoop logFuel r = logIter^[59] r :=
    (logLoopRunsFiftyNineIterations.2.2 r hr).1 logFuel (by decide)
  simp only [fLog2, hx.not_ge, if_false, logReciprocal_of_pos hx, bind, Except.bind]
  rw [← logStart_res_add]
  split
  next hy => rw [hy, logBits_unit, zero_mul, add_zero]
  next => rw [hloop _ rfl, logIter_iterate]; rfl

theorem fLog2_of_lt_unit {x : Int} (hx : 0 < x) (h : x < UNIT) : fLog2 x = .ok (-logSize (logArg x)) := by
  rw [fLog2_of_pos hx, logSign_of_lt h, neg_one_mul]

theorem fLog2_of_unit_le {x : Int} (h : UNIT ≤ x) : fLog2 x = .ok (logSize x) := by
  rw [fLog2_of_pos (unit_pos.trans_le h), logSign_of_ge h, logArg_of_ge h, one_mul]

/-- Settles O46: `fLog2_of_pos`, whose integer part is the floor of the base-2 logarithm by `logIntPart_eq_log`. -/
theorem log2IsTheSumOfItsBits : Obligations.Log2IsTheSumOfItsBits := by
  refine ⟨fun s h => exec_of_outcome_error (i := .log2) (onSigned_of_error (fLog2_of_nonpos h)), fun s hx => ?_, rfl⟩
  have hf := fLog2_of_pos hx
  have hn := logIntPart_eq_log (unit_le_logArg hx) (logArg_le_max (inS_sval s.capA))
  obtain ⟨w, hexec, hw⟩ := exec_of_outcome_enc (i := .log2) (onSigned_of_ok hf) (inS_of_fLog2_ok hf)
  refine ⟨w, hexec, hw.trans ?_⟩
  rw [logSize, hn, ← Nat.log2_eq_log_two]
  rfl

theorem unit_le_two_pow_mul_unit (k : Nat) : UNIT ≤ 2 ^ k * UNIT :=
  le_mul_of_one_le_left unit_pos.le (one_le_pow₀ (by norm_num))

/-- A power of two is normalised to UNIT. -/
theorem logSize_two_pow {k : Nat} (h : 2 ^ k * UNIT ≤ MAX_59x18) : logSize (2 ^ k * UNIT) = k * UNIT := by
  have hn : logIntPart (2 ^ k * UNIT) = k := by
    rw [logIntPart_eq_log (unit_le_two_pow_mul_unit k) h, Int.mul_ediv_cancel _ unit_pos.ne', Int.toNat_pow_of_nonneg (by norm_num)]
    exact Nat.log_pow Nat.one_lt_two k
  have hy : align (2 ^ k * UNIT) k = UNIT := Int.mul_ediv_cancel_left _ (by positivity)
  rw [logSize, hn, hy, logBits_unit, add_zero]

/-- Settles O50: the operand or its reciprocal is 2 ^ k·UNIT; UNIT has 18 factors of two, so the reciprocal is exact. -/
theorem log2IsExactOnPowersOfTwo : Obligations.Log2IsExactOnPowersOfTwo := by
  refine ⟨fun k h => ?_, fun k h1 h18 => ?_⟩
  · rw [fLog2_of_unit_le (unit_le_two_pow_mul_unit k), logSize_two_pow h]
  · have hexact : 0 < UNIT / 2 ^ k ∧ UNIT / 2 ^ k < UNIT ∧ 10 ^ 36 / (UNIT / 2 ^ k) = 2 ^ k * UNIT ∧
        2 ^ k * UNIT ≤ MAX_59x18 := by
      interval_cases k <;> decide
    obtain ⟨hpos, hlt, hrec, hmax⟩ := hexact
    rw [fLog2_of_lt_unit hpos hlt, logArg_of_lt hlt, hrec, logSize_two_pow hmax]

theorem logSize_nonneg (x' : Int) : 0 ≤ logSize x' :=
  add_nonneg (mul_nonneg (Int.natCast_nonneg _) unit_pos.le) (logBits_bounds 59 _ (by decide)).1

/-- With one integer part the bits decide; otherwise the bits of the smaller value add up to at most UNIT. -/
theorem logSize_mono {x y : Int} (hx : UNIT ≤ x) (hy : y ≤ MAX_59x18) (h : x ≤ y) : logSize x ≤ logSize y := by
  have hn : logIntPart x ≤ logIntPart y := by
    rw [logIntPart_eq_log hx (h.trans hy), logIntPart_eq_log (hx.trans h) hy]
    exact Nat.log_mono_right (Int.toNat_le_toNat (Int.ediv_le_ediv unit_pos h))
  rcases hn.eq_or_lt with heq | hlt
  · have halign : align x (logIntPart y) ≤ align y (logIntPart y) := Int.ediv_le_ediv (by positivity) h
    have h0 : 0 ≤ align x (logIntPart y) := Int.ediv_nonneg (unit_pos.le.trans hx) (by positivity)
    rw [logSize, logSize, heq]
    exact add_le_add_right (logBits_mono 59 (by decide) h0 halign) _
  · have hbits := (logBits_bounds 59 (d := HALF_UNIT) (align x (logIntPart x)) (by decide)).2
    have hbits' := (logBits_bounds 59 (d := HALF_UNIT) (align y (logIntPart y)) (by decide)).1
    rw [logSize, logSize]
    simp only [UNIT, HALF_UNIT] at hbits hbits' ⊢
    omega

theorem fLog2_ok_sign {x v : Int} (h : fLog2 x = .ok v) : (x < UNIT → v ≤ 0) ∧ (UNIT ≤ x → 0 ≤ v) := by
  have hx := (fLog2_ok_cases h).1
  refine ⟨fun hlt => ?_, fun hge => ?_⟩
  · obtain rfl := Except.ok.inj ((fLog2_of_lt_unit hx hlt).symm.trans h)
    exact neg_nonpos.mpr (logSize_nonneg _)
  · obtain rfl := Except.ok.inj ((fLog2_of_unit_le hge).symm.trans h)
    exact logSize_nonneg x

/-- Settles O51: `logSize_mono` from UNIT on and, with the order turned twice by `logArg_anti`, below it; the sign decides
across UNIT. -/
theorem log2IsMonotone : Obligations.Log2IsMonotone := by
  intro x y u v hinx hiny hxy hu hv
  have hx := (fLog2_ok_cases hu).1
  have hy := hx.trans_le hxy
  rcases lt_or_ge x UNIT with hxlt | hxge
  · rcases lt_or_ge y UNIT with hylt | hyge
    · obtain rfl := Except.ok.inj ((fLog2_of_lt_unit hx hxlt).symm.trans hu)
      obtain rfl := Except.ok.inj ((fLog2_of_lt_unit hy hylt).symm.trans hv)
      exact neg_le_neg (logSize_mono (unit_le_logArg hy) (logArg_le_max hinx) (logArg_anti hx hxy hylt))
    · exact ((fLog2_ok_sign hu).1 hxlt).trans ((fLog2_ok_sign hv).2 hyge)
  · obtain rfl := Except.ok.inj ((fLog2_of_unit_le hxge).symm.trans hu)
    obtain rfl := Except.ok.inj ((fLog2_of_unit_le (hxge.trans hxy)).symm.trans hv)
    exact logSize_mono hxge hiny.2 hxy

/-- Settles O52: the two extremes are computed, and `log2IsMonotone` puts every other result between them. -/
theorem log2RangeAndSign : Obligations.Log2RangeAndSign := by
  have hmin : fLog2 1 = .ok (-59794705707972522245) := rfl
  have hmax : fLog2 MAX_59x18 = .ok 195205294292027477728 := rfl
  refine ⟨fun x hx hin => ?_, hmin, hmax⟩
  have hv := fLog2_of_pos hx
  exact ⟨_, hv, log2IsMonotone 1 x _ _ (by decide) hin hx hmin hv,
    log2IsMonotone x MAX_59x18 _ _ hin (by decide) hin.2 hv hmax, fLog2_ok_sign hv⟩

/-- A result of LOG2 is at most 196 in size, so neither check of MUL by LN2 can fail. -/
theorem exists_fMul_ln2_of_fLog2_ok {x l : Int} (hin : InS x) (h : fLog2 x = .ok l) : ∃ m, fMul l LN2 = .ok m := by
  obtain ⟨v, hv, hlow, hhigh, -⟩ := log2RangeAndSign.1 x (fLog2_ok_cases h).1 hin
  obtain rfl := Except.ok.inj (hv.symm.trans h)
  have hbias := abs_le.mp (abs_halfBias v).le
  refine ⟨_, fMul_ok_iff.mpr ⟨?_, ?_, rfl⟩⟩ <;>
    simp only [InS, LN2, HALF_UNIT, MIN_59x18, MAX_59x18] at hbias ⊢ <;> omega

/-- Settles O53: LN stops where LOG2 does; otherwise both result words are those of their values, and MUL reads the word of
LOG2 back. -/
theorem lnIsLog2TimesLn2 : Obligations.LnIsLog2TimesLn2 := by
  refine ⟨fun s h => ?_, fun s hx => ?_, rfl⟩
  · have hln : fLn (sval s.capA) = .error .logNonpos := by
      rw [fLn_eq, fLog2_of_nonpos h]
      rfl
    exact exec_of_outcome_error (i := .ln) (onSigned_of_error hln)
  · have hl := fLog2_of_pos hx
    obtain ⟨m, hm⟩ := exists_fMul_ln2_of_fLog2_ok (inS_sval _) hl
    have hln : fLn (sval s.capA) = .ok m := by
      rw [fLn_eq, hl]
      exact hm
    refine ⟨_, _, exec_of_outcome_ok (i := .log2) (onSigned_of_ok hl), exec_of_outcome_ok (i := .ln) (onSigned_of_ok hln),
      onSigned2_of_ok ?_⟩
    rw [sval_enc (inS_of_fLog2_ok hl), sval_enc (by decide)]
    exact hm

end Sys2Proof.Machine
end

section
/-! PROOFS. Family 5 (R161 to R163): the constants UNIT, E and PI, each as its value and as the word that encodes it. -/

namespace Sys2Proof.Machine

/-- A command whose operation is a constant in range answers OK with the constant's word, which reads back as its value. -/
theorem exec_of_constant {i : Instr} {s : State} {v : Int} {w : Word} (h : outcome i s.capA s.capB = .ok (enc v))
    (hv : InS v) (hw : enc v = w) :
    ∃ w', exec i s = .next (s.present { status := 0, cause := 0, result := w' }) ∧ sval w' = v ∧ w' = w :=
  ⟨enc v, exec_of_outcome_ok h, sval_enc hv, hw⟩

/-- Settles O54: the three operations read no operand, so each is its constant by definition; that the constant is in range
and has the printed word is computed. -/
theorem constantsAreTheirWords : Obligations.ConstantsAreTheirWords := fun s =>
  have hunit : enc UNIT = 0x0de0b6b3a7640000 := by decide
  have he : enc E_RAW = 0x25b946ebc0b36173 := by decide
  have hpi : enc PI_RAW = 0x2b992ddfa23249d6 := by decide
  ⟨exec_of_constant (i := .unit) rfl (by decide) hunit,
    exec_of_constant (i := .e) rfl (by decide) he,
    exec_of_constant (i := .pi) rfl (by decide) hpi, rfl, rfl, rfl⟩

end Sys2Proof.Machine
end

section
/-! PROOFS. Family 6 (R171 to R174): the signature-only commands, which are the commands without a result. -/

namespace Sys2Proof.Machine

theorem resultKind_eq_none_iff (i : Instr) :
    resultKind i = .none ↔ i = .muldiv ∨ i = .sqrt ∨ i = .exp ∨ i = .exp2 := by
  cases i <;> decide

/-- The converse of `exists_encode_of_signature_only`. -/
theorem encode_bounds_of_no_result {i : Instr} (h : resultKind i = .none) :
    0x60 ≤ (encode i).toNat ∧ (encode i).toNat ≤ 0x63 := by
  rcases (resultKind_eq_none_iff i).1 h with rfl | rfl | rfl | rfl <;> decide

/-- Settles O55: a command without a result ends with UNIMPLEMENTED for every operand, and its word is one of 0x60 to 0x63. -/
theorem signatureOnlyCommandsAnswerUnimplemented : Obligations.SignatureOnlyCommandsAnswerUnimplemented := by
  intro i s hi
  have hnone := (resultKind_eq_none_iff i).2 hi
  exact ⟨exec_of_outcome_error (outcome_of_no_result hnone s.capA s.capB), encode_bounds_of_no_result hnone⟩

end Sys2Proof.Machine
end

section
/-! PROOFS. Errors (R182, R183, R185): each command's checks in their order, the table of causes, and what the BUSY-to-DONE
edge of an error writes. -/

namespace Sys2Proof.Machine

/-! An operation that makes one check, or two in order, ends with an error exactly where a check fails (R17). -/

theorem error_iff_of_check {α : Type} {r : OpResult α} {k c : Cause} {p : Prop} (hp : p → r = .error k)
    (hok : ¬ p → ∃ v, r = .ok v) : r = .error c ↔ c = k ∧ p := by
  by_cases h : p
  · simp [hp h, h, eq_comm]
  · obtain ⟨v, hv⟩ := hok h
    simp [hv, h]

theorem error_iff_of_two_checks {α : Type} {r : OpResult α} {k l c : Cause} {p q : Prop} (hp : ¬ p → r = .error k)
    (hq : p → q → r = .error l) (hok : p → ¬ q → ∃ v, r = .ok v) :
    r = .error c ↔ c = k ∧ ¬ p ∨ c = l ∧ p ∧ q := by
  by_cases h : p
  · simpa [h] using error_iff_of_check (hq h) (hok h)
  · simp [hp h, h, eq_comm]

/-! The checks of each command (R182). -/

theorem outcome_abs_error_iff {a b : Word} {c : Cause} :
    outcome .abs a b = .error c ↔ c = .absMin ∧ sval a = MIN_59x18 :=
  error_iff_of_check (fun h => onSigned_of_error (h ▸ fAbs_min)) fun h => ⟨_, onSigned_of_ok (fAbs_of_ne_min h)⟩

theorem outcome_floor_error_iff {a b : Word} {c : Cause} :
    outcome .floor a b = .error c ↔ c = .floorBelowMinWhole ∧ sval a < MIN_WHOLE_59x18 :=
  error_iff_of_check (fun h => onSigned_of_error (fFloor_of_lt h)) fun h =>
    (fFloor_of_ge (not_lt.mp h)).imp' enc fun _ hw => onSigned_of_ok hw.1

theorem outcome_ceil_error_iff {a b : Word} {c : Cause} :
    outcome .ceil a b = .error c ↔ c = .ceilAboveMaxWhole ∧ sval a > MAX_WHOLE_59x18 :=
  error_iff_of_check (fun h => onSigned_of_error (fCeil_of_gt h)) fun h =>
    (fCeil_of_le (not_lt.mp h)).imp' enc fun _ hw => onSigned_of_ok hw.1

/-- The range check of the scaled dividend comes before the check of y (R185). -/
theorem outcome_div_error_iff {a b : Word} {c : Cause} :
    outcome .div a b = .error c ↔
      c = .divOverflow ∧ ¬ InS (sval a * UNIT) ∨ c = .divByZero ∧ InS (sval a * UNIT) ∧ sval b = 0 :=
  error_iff_of_two_checks (fun h => onSigned2_of_error (fDiv_of_not_inS _ h))
    (fun h hy => onSigned2_of_error (hy ▸ fDiv_zero h))
    fun h hy => ⟨_, onSigned2_of_ok (fDiv_ok_iff.mpr ⟨h, hy, rfl⟩)⟩

theorem outcome_mul_error_iff {a b : Word} {c : Cause} :
    outcome .mul a b = .error c ↔
      c = .mulOverflow ∧ ¬ InS (sval a * sval b) ∨
      c = .mulRoundOverflow ∧ InS (sval a * sval b) ∧
        ¬ InS (if sval a > 0 then sval a * sval b + HALF_UNIT else sval a * sval b - HALF_UNIT) :=
  error_iff_of_two_checks (fun h => onSigned2_of_error (fMul_of_not_inS h))
    (fun h hq => onSigned2_of_error (by rw [fMul_eq, if_pos h, if_neg hq]))
    fun h hq => ⟨_, onSigned2_of_ok (by rw [fMul_eq, if_pos h, if_pos (not_not.mp hq)])⟩

theorem outcome_ispow2_error_iff {a b : Word} {c : Cause} :
    outcome .ispow2 a b = .error c ↔ c = .pow2Zero ∧ uval a = 0 :=
  error_iff_of_check (fun h => congrArg (Except.map boolWord) (if_pos h)) fun h => ⟨_, outcome_ispow2_of_ne_zero b h⟩

theorem outcome_nextpow2_error_iff {a b : Word} {c : Cause} :
    outcome .nextpow2 a b = .error c ↔ c = .pow2Zero ∧ uval a = 0 :=
  error_iff_of_check (fun h => if_pos h) fun h => ⟨_, fNextpow2_of_ne_zero h (uval_lt a)⟩

theorem outcome_log2_error_iff {a b : Word} {c : Cause} :
    outcome .log2 a b = .error c ↔ c = .logNonpos ∧ sval a ≤ 0 :=
  error_iff_of_check (fun h => onSigned_of_error (fLog2_of_nonpos h)) fun h =>
    ⟨_, onSigned_of_ok (fLog2_of_pos (not_le.mp h))⟩

theorem fLn_of_nonpos {x : Int} (h : x ≤ 0) : fLn x = .error .logNonpos := by
  rw [fLn_eq, fLog2_of_nonpos h]
  rfl

theorem exists_fLn_of_pos {x : Int} (hx : 0 < x) (hin : InS x) : ∃ m, fLn x = .ok m := by
  have hl := fLog2_of_pos hx
  rw [fLn_eq, hl]
  exact exists_fMul_ln2_of_fLog2_ok hin hl

/-- The multiplication by LN2 adds no error of its own. -/
theorem outcome_ln_error_iff {a b : Word} {c : Cause} :
    outcome .ln a b = .error c ↔ c = .logNonpos ∧ sval a ≤ 0 :=
  error_iff_of_check (fun h => onSigned_of_error (fLn_of_nonpos h)) fun h =>
    (exists_fLn_of_pos (not_le.mp h) (inS_sval a)).imp' enc fun _ => onSigned_of_ok

/-! The table of R182 by cause. -/

/-- The command word op on A and B meets the row of R182 for cause c. -/
def RaisedBy (c : Cause) (op : Command) (a b : Word) : Prop :=
  match c with
  | .logNonpos => (op = encode .log2 ∨ op = encode .ln) ∧ sval a ≤ 0
  | .pow2Zero => (op = encode .ispow2 ∨ op = encode .nextpow2) ∧ uval a = 0
  | .divByZero => op = encode .div ∧ sval b = 0 ∧ InS (sval a * UNIT)
  | .absMin => op = encode .abs ∧ sval a = MIN_59x18
  | .floorBelowMinWhole => op = encode .floor ∧ sval a < MIN_WHOLE_59x18
  | .ceilAboveMaxWhole => op = encode .ceil ∧ sval a > MAX_WHOLE_59x18
  | .divOverflow => op = encode .div ∧ ¬ InS (sval a * UNIT)
  | .mulOverflow => op = encode .mul ∧ ¬ InS (sval a * sval b)
  | .mulRoundOverflow => op = encode .mul ∧ InS (sval a * sval b) ∧
      ¬ InS (if sval a > 0 then sval a * sval b + HALF_UNIT else sval a * sval b - HALF_UNIT)
  | .unimplemented => 0x60 ≤ op.toNat ∧ op.toNat ≤ 0x63
  | .reservedOp => Command.assigned op = false

theorem raisedBy_of_outcome_error {i : Instr} {a b : Word} {c : Cause} (h : outcome i a b = .error c) :
    RaisedBy c (encode i) a b := by
  cases i with
  | abs =>
    obtain ⟨rfl, hx⟩ := outcome_abs_error_iff.1 h
    exact ⟨rfl, hx⟩
  | floor =>
    obtain ⟨rfl, hx⟩ := outcome_floor_error_iff.1 h
    exact ⟨rfl, hx⟩
  | ceil =>
    obtain ⟨rfl, hx⟩ := outcome_ceil_error_iff.1 h
    exact ⟨rfl, hx⟩
  | div =>
    obtain ⟨rfl, hp⟩ | ⟨rfl, hp, hy⟩ := outcome_div_error_iff.1 h
    · exact ⟨rfl, hp⟩
    · exact ⟨rfl, hy, hp⟩
  | mul =>
    obtain ⟨rfl, hp⟩ | ⟨rfl, hp, hq⟩ := outcome_mul_error_iff.1 h
    · exact ⟨rfl, hp⟩
    · exact ⟨rfl, hp, hq⟩
  | ispow2 =>
    obtain ⟨rfl, hu⟩ := outcome_ispow2_error_iff.1 h
    exact ⟨.inl rfl, hu⟩
  | nextpow2 =>
    obtain ⟨rfl, hu⟩ := outcome_nextpow2_error_iff.1 h
    exact ⟨.inr rfl, hu⟩
  | log2 =>
    obtain ⟨rfl, hx⟩ := outcome_log2_error_iff.1 h
    exact ⟨.inl rfl, hx⟩
  | ln =>
    obtain ⟨rfl, hx⟩ := outcome_ln_error_iff.1 h
    exact ⟨.inr rfl, hx⟩
  | frac | msb | unit | e | pi => cases h
  | muldiv | sqrt | exp | exp2 =>
    cases h
    exact encode_bounds_of_no_result rfl

theorem execWord_of_outcome_error {i : Instr} {a b : Word} {c : Cause} (h : outcome i a b = .error c) :
    execWord (encode i) a b = respond (.error c) := by
  rw [execWord_encode, h]

theorem execWord_of_raisedBy {c : Cause} {op : Command} {a b : Word} (h : RaisedBy c op a b) :
    execWord op a b = respond (.error c) := by
  cases c with
  | logNonpos =>
    obtain ⟨rfl | rfl, hx⟩ := h
    · exact execWord_of_outcome_error (outcome_log2_error_iff.2 ⟨rfl, hx⟩)
    · exact execWord_of_outcome_error (outcome_ln_error_iff.2 ⟨rfl, hx⟩)
  | pow2Zero =>
    obtain ⟨rfl | rfl, hu⟩ := h
    · exact execWord_of_outcome_error (outcome_ispow2_error_iff.2 ⟨rfl, hu⟩)
    · exact execWord_of_outcome_error (outcome_nextpow2_error_iff.2 ⟨rfl, hu⟩)
  | divByZero =>
    obtain ⟨rfl, hy, hp⟩ := h
    exact execWord_of_outcome_error (outcome_div_error_iff.2 (.inr ⟨rfl, hp, hy⟩))
  | absMin =>
    obtain ⟨rfl, hx⟩ := h
    exact execWord_of_outcome_error (outcome_abs_error_iff.2 ⟨rfl, hx⟩)
  | floorBelowMinWhole =>
    obtain ⟨rfl, hx⟩ := h
    exact execWord_of_outcome_error (outcome_floor_error_iff.2 ⟨rfl, hx⟩)
  | ceilAboveMaxWhole =>
    obtain ⟨rfl, hx⟩ := h
    exact execWord_of_outcome_error (outcome_ceil_error_iff.2 ⟨rfl, hx⟩)
  | divOverflow =>
    obtain ⟨rfl, hp⟩ := h
    exact execWord_of_outcome_error (outcome_div_error_iff.2 (.inl ⟨rfl, hp⟩))
  | mulOverflow =>
    obtain ⟨rfl, hp⟩ := h
    exact execWord_of_outcome_error (outcome_mul_error_iff.2 (.inl ⟨rfl, hp⟩))
  | mulRoundOverflow =>
    obtain ⟨rfl, hp, hq⟩ := h
    exact execWord_of_outcome_error (outcome_mul_error_iff.2 (.inr ⟨rfl, hp, hq⟩))
  | unimplemented =>
    obtain ⟨i, rfl, hi⟩ := exists_encode_of_signature_only h
    exact execWord_of_outcome_error (outcome_of_no_result hi a b)
  | reservedOp => exact execWord_of_not_assigned h a b

/-- The codes number the causes from 1 in the order of R69, so each is read back from its code. -/
theorem causeCode_injective : Function.Injective Cause.code :=
  Function.LeftInverse.injective (g := fun w => Cause.ofNat (w.toNat - 1)) fun c => by cases c <;> rfl

theorem respond_cause_eq_code_iff (r : OpResult Word) (c : Cause) : (respond r).cause = c.code ↔ r = .error c := by
  cases r with
  | ok w => cases c <;> simp [Cause.code]
  | error d => simp [causeCode_injective.eq_iff]

theorem execWord_cause_eq_code_iff (c : Cause) (op : Command) (a b : Word) :
    (execWord op a b).cause = c.code ↔ RaisedBy c op a b := by
  constructor
  · intro h
    rcases decode_cases op with ⟨i, rfl, -⟩ | ⟨hop, -⟩
    · rw [execWord_encode, respond_cause_eq_code_iff] at h
      exact raisedBy_of_outcome_error h
    · rw [execWord_of_not_assigned hop] at h
      obtain rfl : .reservedOp = c := causeCode_injective h
      exact hop
  · intro h
    rw [execWord_of_raisedBy h]
    rfl

/-- The status of an answer by its cause (R69). -/
theorem respond_status_iff (r : OpResult Word) :
    ((respond r).status = 0 ↔ (respond r).cause = 0) ∧
    ((respond r).status = 1 ↔ (respond r).cause = 1 ∨ (respond r).cause = 2 ∨ (respond r).cause = 3) ∧
    ((respond r).status = 2 ↔ (respond r).cause = 4 ∨ (respond r).cause = 5 ∨ (respond r).cause = 6 ∨
      (respond r).cause = 7 ∨ (respond r).cause = 8 ∨ (respond r).cause = 9) ∧
    ((respond r).status = 3 ↔ (respond r).cause = 10 ∨ (respond r).cause = 11) := by
  cases r with
  | ok w => simp
  | error c => cases c <;> decide

/-- Settles O26: `execWord_cause_eq_code_iff` row by row, and each cause comes with its status. -/
theorem eachCauseIsRaisedExactlyByItsCondition : Obligations.EachCauseIsRaisedExactlyByItsCondition := by
  intro op a b
  have hrow (c : Cause) := execWord_cause_eq_code_iff c op a b
  obtain ⟨r, hr⟩ := execWord_eq_respond op a b
  exact ⟨hrow .logNonpos, hrow .pow2Zero, hrow .divByZero, hrow .absMin, hrow .floorBelowMinWhole,
    hrow .ceilAboveMaxWhole, hrow .divOverflow, hrow .mulOverflow, hrow .mulRoundOverflow, hrow .unimplemented,
    hrow .reservedOp, hr ▸ respond_status_iff r⟩

/-- Settles O27: the BUSY-to-DONE edge presents the response to the captured command's error, and `present` keeps the rest. -/
theorem errorResponseWritesStatusCauseAndZero : Obligations.ErrorResponseWritesStatusCauseAndZero := by
  intro s i c hs hi hc
  have hresp : execWord s.capOp s.capA s.capB = respond (.error c) := by rw [execWord_of_decode hi, hc]
  exact ⟨_, step_of_completes hs, by simp [hresp]⟩

end Sys2Proof.Machine
end

section
/-! PROOFS. The handshake edge by edge (R216 to R218, R221): a request waits until the unit is ready, a response waits until
the host takes it. -/

namespace Sys2Proof.Machine

theorem State.accepts_of_idle {s : State} (hp : s.phase = .idle) (hr : s.pins.rst = false) :
    s.accepts = s.pins.reqValid := by
  simp [State.accepts, State.reqReady, hp, hr]

theorem accepts_eq_false_of_delivers {s : State} (h : s.delivers = true) : s.accepts = false := by
  simp [State.accepts, State.reqReady, (s.delivers_iff.1 h).1]

theorem step_of_held {s : State} (hp : s.phase = .done) (hr : s.pins.rst = false) (hv : s.pins.rspReady = false) :
    step s = .next s.tick := by
  rw [step_of_done hr hp, State.doneEdge, hv]
  rfl

/-- While `req_ready = 0`, the edge reads no port but `rst` and `rsp_ready`. Two states with one `tick` agree in all else
but the ports of the coming edge. -/
theorem step_congr_of_not_reqReady {s s' : State} (htick : s'.tick = s.tick) (hrst : s'.pins.rst = s.pins.rst)
    (hrsp : s'.pins.rspReady = s.pins.rspReady) (hready : s.reqReady = false) : step s' = step s := by
  have hphase : s'.phase = s.phase := by simpa using congrArg State.phase htick
  have hlat : s'.latLeft = s.latLeft := by simpa using congrArg State.latLeft htick
  have hedges : s'.edges = s.edges := by simpa using congrArg State.edges htick
  cases hr : s.pins.rst with
  | true =>
    rw [step_of_rst (hrst.trans hr), step_of_rst hr, State.resetEdge, State.resetEdge, htick, hedges]
  | false =>
    have hr' := hrst.trans hr
    cases hp : s.phase with
    | idle => simp [s.reqReady_iff.2 ⟨hp, hr⟩] at hready
    | busy =>
      have hp' := hphase.trans hp
      rcases Nat.lt_or_ge 1 s.latLeft with hl | hl
      · rw [step_of_wait hr' hp' (hlat ▸ hl), step_of_wait hr hp hl, State.waitEdge, State.waitEdge, htick, hlat]
      · have hop : s'.capOp = s.capOp := by simpa using congrArg State.capOp htick
        have ha : s'.capA = s.capA := by simpa using congrArg State.capA htick
        have hb : s'.capB = s.capB := by simpa using congrArg State.capB htick
        rw [step_of_complete hr' hp' (hlat ▸ hl), step_of_complete hr hp hl, htick, hop, ha, hb]
    | done =>
      rw [step_of_done hr' (hphase.trans hp), step_of_done hr hp, State.doneEdge, State.doneEdge, hrsp,
        State.deliverEdge, State.deliverEdge, htick]

/-- Settles O9: a request at a ready unit is accepted (`step_of_accepts`); at any other the request ports are not read
(`step_congr_of_not_reqReady`). -/
theorem requestsAreTakenOnlyWhenReady : Obligations.RequestsAreTakenOnlyWhenReady := by
  refine ⟨fun s _ hv hready => ?_, fun s p rest v op a b hin hready => ?_⟩
  · have ha : s.accepts = true := by rw [State.accepts, hv, hready]; rfl
    exact ⟨s.acceptEdge, step_of_accepts ha, rfl, rfl, rfl, rfl, rfl⟩
  · have hpins : s.pins = p := State.pins_of_inputs hin
    refine step_congr_of_not_reqReady ?_ ?_ ?_ hready
    · simp only [State.tick, hin, List.tail_cons]
    · rw [hpins]
      rfl
    · rw [hpins]
      rfl

/-- A response that no edge takes or resets is held unchanged, over any number of edges (R218). -/
theorem run_held {s : State} (hp : s.phase = .done) {k : Nat}
    (hk : ∀ j < k, (s.pinsAfter j).rst = false ∧ (s.pinsAfter j).rspReady = false) :
    ∃ t : State, Host.Core.run Sys2Proof.core k s = .next t ∧ t.phase = .done ∧ t.rspRegs = s.rspRegs := by
  induction k with
  | zero => exact ⟨s, rfl, hp, rfl⟩
  | succ k ih =>
    obtain ⟨t, hrun, htp, htr⟩ := ih fun j hj => hk j (by omega)
    obtain ⟨hrst, hrsp⟩ := hk k k.lt_succ_self
    rw [← run_pins hrun] at hrst hrsp
    exact ⟨t.tick, run_succ_of_run hrun (step_of_held htp hrst hrsp), htp, htr⟩

/-- Settles O14: the response is held (`run_held`) until the edge that delivers it (`step_of_delivers`). -/
theorem responseIsHeldUntilTaken : Obligations.ResponseIsHeldUntilTaken := by
  refine ⟨fun s k hp hk => ?_, fun s hp hr hv => ?_⟩
  · obtain ⟨t, hrun, htp, htr⟩ := run_held hp hk
    exact ⟨t, hrun, htp, htr, run_pins hrun⟩
  · have hd : s.delivers = true := s.delivers_iff.2 ⟨hp, hr, hv⟩
    exact ⟨hd, s.deliverEdge, step_of_delivers hd, rfl⟩

/-- Settles O15: the delivery is from DONE, which accepts nothing, to IDLE, which accepts what is there. -/
theorem nextRequestWaitsForDelivery : Obligations.NextRequestWaitsForDelivery := fun s hd =>
  ⟨accepts_eq_false_of_delivers hd, s.deliverEdge, step_of_delivers hd, rfl, State.accepts_of_idle rfl⟩

/-- A request the host keeps is still on the ports after the edges over which it is kept (R217). -/
theorem portRequest_of_hostKeepsRequest {s t : State} {k : Nat} (hkeep : hostKeepsRequest k s)
    (hv : s.pins.reqValid = true) (hrun : Host.Core.run Sys2Proof.core k s = .next t) :
    t.portRequest = s.portRequest := by
  induction k generalizing s with
  | zero => rw [Host.Outcome.next.inj hrun]
  | succ k ih =>
    obtain ⟨s', hs⟩ := everyEdgeHasANextState s
    rw [run_succ_of_step hs] at hrun
    obtain ⟨-, hnext⟩ := hkeep
    obtain ⟨hstable, hkeep'⟩ := hnext s' hs
    obtain ⟨hv', hreq⟩ := hstable hv
    exact (ih hkeep' hv' hrun).trans hreq

/-- Settles O21: the acceptance captures what is on the ports, and that is the request the host has kept. -/
theorem stableRequestIsTheOneCaptured : Obligations.StableRequestIsTheOneCaptured := by
  intro s t u k hkeep hv hrun ha hstep
  rw [eq_of_step hstep (step_of_accepts ha), State.acceptEdge_captured]
  exact portRequest_of_hostKeepsRequest hkeep hv hrun

end Sys2Proof.Machine
end
